-- ==== Sys2Proof/Word.lean ====
section
/-! DEFINITION. The word of the modexp block and the types of its indices (00_scope.md R6, R7, R10). -/

namespace Sys2Proof

/-- Every operand, every register of the window and every stored datum is an unsigned 64-bit value (R6). -/
abbrev Word := BitVec 64

/-- One byte lane of a register access (R54). -/
abbrev Byte := BitVec 8

/-- A bit position of the exponent, 0 (least significant) to 63 (R7: NBITS = 64). -/
abbrev BitIndex := Fin 64

/-- All bit positions, in increasing order. -/
def allIndices : List BitIndex := List.finRange 64

end Sys2Proof
end

