-- ==== Sys2Proof/Machine/Script.lean ====
section
/-! DEFINITION. The host's side of the bus as data: the registers by name, bus accesses and transactions,
and the lines of the host script (10_state.md R20; 20_memory.md R51 to R55; 30_encoding.md R75 to R77). -/

namespace Sys2Proof.Machine

/-- The eight registers of the window (R20). -/
inductive Reg
  | ctrl | status | config | caps | opa | opb | mod | result
  deriving DecidableEq, Repr

/-- The widths of a bus access that the spec names (R51). -/
inductive AccessWidth
  | w8 | w16 | w32 | w64 | w128
  deriving DecidableEq, Repr

/-- One access a bus agent can make, by its offset from BASE (R12: BusRead(off), BusWrite(off, v)); a
negative offset or one of 64 and more lies outside the window (log 7). The value of a write that is not
64 bits wide is not held: such a write never reaches a register (R51). -/
inductive BusAccess
  | read (off : Int) (width : AccessWidth)
  | write (off : Int) (width : AccessWidth) (v : Word)
  deriving DecidableEq, Repr

/-- The name a script gives to a value read (R75): `rd REG` names it REG, `rd REG -> name` names it
`name`. Only equality of names matters, so a name of the script's own is a number (log 12). -/
inductive ScriptName
  | reg (r : Reg)
  | user (n : Nat)
  deriving DecidableEq, Repr

/-- One transaction the block has performed, in the form of R77: `W off data`, or `R off` with the value
it returned and the name the script gives that value. -/
inductive BusEvent
  | wrote (r : Reg) (v : Word)
  | read (r : Reg) (v : Word) (name : ScriptName)
  deriving DecidableEq, Repr

/-- An expression over bound names in the notation of R9 and R10 (R75); it denotes an unbounded integer. -/
inductive Expr
  | num (n : Nat)
  | name (x : ScriptName)
  | add (a b : Expr)
  | sub (a b : Expr)
  | mul (a b : Expr)
  | pow (a k : Expr)
  | mod (a m : Expr)
  | floorDiv (a b : Expr)
  | bit (v i : Expr)
  | slice (v hi lo : Expr)
  deriving DecidableEq, Repr

/-- The condition of a host branch on previously read values (R75). -/
inductive Cond
  | eq (a b : Expr)
  | ne (a b : Expr)
  | lt (a b : Expr)
  | le (a b : Expr)
  | and (c d : Cond)
  | or (c d : Cond)
  | not (c : Cond)
  deriving DecidableEq, Repr

/-- One line of a host script (R75), and beside it `access`: an access the script notation has no line
for (another width, another offset), which the bus still admits or refuses (R51 to R53, R55). -/
inductive ScriptLine
  | wr (r : Reg) (value : Expr)
  | rd (r : Reg)
  | rdAs (r : Reg) (name : ScriptName)
  | label (l : Nat)
  | ifGoto (c : Cond) (l : Nat)
  | comment
  | access (a : BusAccess)
  deriving DecidableEq, Repr

/-- The pseudo-instructions of R76. The label of `wait` is "a fresh label", so the user of the pseudo
supplies it. The W and P of `config W, P` are constants in the ranges R76 gives: whether they may be
expressions over bound names, as the `value` of `wr` may, R76 does not say (DESIGN CHOICE, log 25; such a
write is the line `wr CONFIG`). -/
inductive Pseudo
  | clear
  | modmul
  | modexp
  | config (w : BitVec 8) (part : BitVec 2)
  | wait (fresh : Nat)
  | modmulOf (a b m : Expr) (fresh : Nat)
  | modexpOf (x e m : Expr) (fresh : Nat)
  deriving DecidableEq, Repr

end Sys2Proof.Machine
end

