-- ==== Sys2Proof/Syntax.lean ====
section
/-! DEFINITION. The commands of the block, one constructor per row of spec/opcode_table.json. -/

namespace Sys2Proof

/-- A command word written to CTRL (30_encoding.md R70, R72). Each constructor keeps `ign`, the ignored
bits [63:4] of the word, so that decoding loses no bit (log 19); R71: the word carries no operand. -/
inductive Instr
  | clear (ign : BitVec 60)
  | modmul (ign : BitVec 60)
  | modexp (ign : BitVec 60)
  | reserved3 (ign : BitVec 60)
  | reserved4 (ign : BitVec 60)
  | reserved5 (ign : BitVec 60)
  | reserved6 (ign : BitVec 60)
  | reserved7 (ign : BitVec 60)
  | reserved8 (ign : BitVec 60)
  | reserved9 (ign : BitVec 60)
  | reservedA (ign : BitVec 60)
  | reservedB (ign : BitVec 60)
  | reservedC (ign : BitVec 60)
  | reservedD (ign : BitVec 60)
  | reservedE (ign : BitVec 60)
  | reservedF (ign : BitVec 60)
  deriving DecidableEq, Repr

end Sys2Proof
end

