-- ==== Sys2Proof/WellFormed.lean ====
section
/-! DEFINITION. What is well formed. A command word needs no check: its one free field has its width in
its type, and every value of it is a command (30_encoding.md R70, R72). A host script does (R75). -/

namespace Sys2Proof

/-- Every command is well formed: R72, "every 64-bit value decodes to exactly one row". -/
def Instr.wellFormed (_ : Instr) : Bool := true

namespace Machine

/-- The names an expression reads. -/
def Expr.names : Expr → List ScriptName
  | .num _ => []
  | .name x => [x]
  | .add a b | .sub a b | .mul a b | .pow a b | .mod a b | .floorDiv a b | .bit a b => a.names ++ b.names
  | .slice a b c => a.names ++ b.names ++ c.names

/-- The names a condition reads. -/
def Cond.names : Cond → List ScriptName
  | .eq a b | .ne a b | .lt a b | .le a b => a.names ++ b.names
  | .and c d | .or c d => c.names ++ d.names
  | .not c => c.names

/-- The label a line declares. -/
def ScriptLine.declaredLabel : ScriptLine → List Nat
  | .label l => [l]
  | .wr _ _ | .rd _ | .rdAs _ _ | .ifGoto _ _ | .comment | .access _ => []

/-- The label a line branches to. -/
def ScriptLine.targetLabel : ScriptLine → List Nat
  | .ifGoto _ l => [l]
  | .wr _ _ | .rd _ | .rdAs _ _ | .label _ | .comment | .access _ => []

/-- The names a line binds. -/
def ScriptLine.bindsNames : ScriptLine → List ScriptName
  | .rd r => [.reg r]
  | .rdAs _ x => [x]
  | .wr _ _ | .label _ | .ifGoto _ _ | .comment | .access _ => []

/-- The names a line reads. -/
def ScriptLine.readsNames : ScriptLine → List ScriptName
  | .wr _ e => e.names
  | .ifGoto c _ => c.names
  | .rd _ | .rdAs _ _ | .label _ | .comment | .access _ => []

/-- A literal that a line writes is a 64-bit value (R75: "write the 64-bit value"). -/
def ScriptLine.literalFits : ScriptLine → Bool
  | .wr _ (.num n) => decide (n < 2 ^ 64)
  | .wr _ _ | .rd _ | .rdAs _ _ | .label _ | .ifGoto _ _ | .comment | .access _ => true

/-- No label is declared twice. -/
def labelsDistinct (script : List ScriptLine) : Bool :=
  decide (script.flatMap ScriptLine.declaredLabel).Nodup

/-- Every branch goes to a label of the script. -/
def targetsDeclared (script : List ScriptLine) : Bool :=
  (script.flatMap ScriptLine.targetLabel).all fun l => (script.flatMap ScriptLine.declaredLabel).contains l

/-- Every name read is one that some line binds. -/
def namesBound (script : List ScriptLine) : Bool :=
  (script.flatMap ScriptLine.readsNames).all fun x =>
    decide (x ∈ script.flatMap ScriptLine.bindsNames)

/-- A host script in the notation of R75. -/
def scriptWellFormed (script : List ScriptLine) : Bool :=
  labelsDistinct script && targetsDeclared script && namesBound script && script.all ScriptLine.literalFits

end Machine

end Sys2Proof
end

