-- ==== Sys2Proof/Decode.lean ====
section
/-! DEFINITION. The decoder and the encoder of command words (30_encoding.md R70, R72, R74), from the
opcode map of R72. -/

namespace Sys2Proof

/-- CMD, bits [3:0] of the command word (R70). -/
def cmdField (v : Word) : BitVec 4 := v.extractLsb' 0 4

/-- IGN, bits [63:4] of the command word: ignored, any value (R70). -/
def ignField (v : Word) : BitVec 60 := v.extractLsb' 4 60

/-- The decoder of R72, total on 64-bit values. -/
def decodeWord (v : Word) : Instr :=
  match (cmdField v).toNat with
  | 0x0 => .clear (ignField v)
  | 0x1 => .modmul (ignField v)
  | 0x2 => .modexp (ignField v)
  | 0x3 => .reserved3 (ignField v)
  | 0x4 => .reserved4 (ignField v)
  | 0x5 => .reserved5 (ignField v)
  | 0x6 => .reserved6 (ignField v)
  | 0x7 => .reserved7 (ignField v)
  | 0x8 => .reserved8 (ignField v)
  | 0x9 => .reserved9 (ignField v)
  | 0xA => .reservedA (ignField v)
  | 0xB => .reservedB (ignField v)
  | 0xC => .reservedC (ignField v)
  | 0xD => .reservedD (ignField v)
  | 0xE => .reservedE (ignField v)
  | _ => .reservedF (ignField v)

/-- Why a sequence of bytes is no command word: R70, "Every command word is 64 bits; there is no other
length". -/
inductive DecodeError
  | notEightBytes
  deriving DecidableEq, Repr

/-- The 64-bit value whose byte lane j carries bits [8j+7 : 8j] (20_memory.md R54). -/
def wordOfLanes (b0 b1 b2 b3 b4 b5 b6 b7 : Byte) : Word :=
  b7 ++ b6 ++ b5 ++ b4 ++ b3 ++ b2 ++ b1 ++ b0

/-- The decoder on bytes, lane 0 (the lowest bus address) first. -/
def decodeBytes : List Byte → Except DecodeError Instr
  | [b0, b1, b2, b3, b4, b5, b6, b7] => .ok (decodeWord (wordOfLanes b0 b1 b2 b3 b4 b5 b6 b7))
  | _ => .error .notEightBytes

/-- The command code of an instruction (R72). -/
def Instr.code : Instr → BitVec 4
  | .clear _ => 0x0
  | .modmul _ => 0x1
  | .modexp _ => 0x2
  | .reserved3 _ => 0x3
  | .reserved4 _ => 0x4
  | .reserved5 _ => 0x5
  | .reserved6 _ => 0x6
  | .reserved7 _ => 0x7
  | .reserved8 _ => 0x8
  | .reserved9 _ => 0x9
  | .reservedA _ => 0xA
  | .reservedB _ => 0xB
  | .reservedC _ => 0xC
  | .reservedD _ => 0xD
  | .reservedE _ => 0xE
  | .reservedF _ => 0xF

/-- The ignored bits an instruction was written with (R70). -/
def Instr.ignored : Instr → BitVec 60
  | .clear ign | .modmul ign | .modexp ign | .reserved3 ign | .reserved4 ign | .reserved5 ign
  | .reserved6 ign | .reserved7 ign | .reserved8 ign | .reserved9 ign | .reservedA ign | .reservedB ign
  | .reservedC ign | .reservedD ign | .reservedE ign | .reservedF ign => ign

/-- The command word of an instruction: IGN above CMD (R70). -/
def encode (i : Instr) : Word := i.ignored ++ i.code

/-- Byte lane j of a register access (20_memory.md R54). -/
def byteLane (v : Word) (j : Nat) : Byte := v.extractLsb' (8 * j) 8

/-- The bytes of a value as the bus carries them, lane 0 first (R54). -/
def lanesOfWord (v : Word) : List Byte := (List.range 8).map (byteLane v)

/-- A row of the opcode map in the match/mask form of R72. -/
structure OpcodeRow where
  mask : Word
  pattern : Word
  deriving DecidableEq, Repr

/-- The sixteen rows of the opcode map (R72): CLEAR, MODMUL, MODEXP and the reserved codes. -/
def opcodeMap : List OpcodeRow := (List.range 16).map fun c => ⟨0xF, BitVec.ofNat 64 c⟩

/-- A row takes a value when the masked value is the row's pattern (R72). -/
def OpcodeRow.takes (row : OpcodeRow) (v : Word) : Bool := v &&& row.mask == row.pattern

/-- The instruction the decoder reads from a word of the opcode table: the first `nbits` bits are those
of `w`, every bit above is 0, and the word is laid out in byte lanes as the hardware carries it. -/
def decodeTableWord (nbits w : Nat) : Option Instr :=
  match decodeBytes (lanesOfWord (BitVec.ofNat 64 (w % 2 ^ nbits))) with
  | .ok i => some i
  | .error _ => none

end Sys2Proof
end

