-- ==== Sys2Proof/Config.lean ====
section
/-! DEFINITION. What one build of the block fixes (00_scope.md R8) and the free values: constants without
a body, so that no proof can depend on a particular choice. -/

namespace Sys2Proof.Config

/-- Of the 255 lanes the 8-bit field CONFIG.W can name, how many this build leaves out. -/
opaque lanesLeftOut : Fin 255

/-- W_MAX, the number of physical worker lanes: OPEN, 1 to 255 (R8, D14; log 6). -/
def wMax : BitVec 8 := BitVec.ofNat 8 (255 - lanesLeftOut.val)

/-- Which 64-byte block of the platform's bus addresses the window occupies. -/
opaque baseBlock : Nat

/-- BASE, the bus address of offset 0x00: OPEN, any 64-byte-aligned address (R8, D4; log 7). -/
def base : Nat := 64 * baseBlock

/-- PARTITION_ANY (R8, R103, D12; log 8), free: in the given draw, the owner of a bit index under worker
count W is this number modulo W. Every partition of 0..63 into W possibly empty subsets has this form. -/
opaque partitionOwner : (draw : Nat) → (workers : Nat) → BitIndex → Nat

/-- The order of the agents' steps (R13: "the order is free"; log 1), free: which of the enabled agents
takes the step of the given draw, modulo their number. -/
opaque schedule : (draw : Nat) → Nat

/-! The values that the spec does not state for the host's script (30_encoding.md R75, 00_scope.md R9, R10;
log 24), free. `sofar` is the number of bus transactions the host has made; the rest are the operands. -/

/-- The value of a name that nothing has been read under. -/
opaque unboundName : (sofar : Nat) → Machine.ScriptName → Int

/-- `a^k` for k < 0. -/
opaque unstatedPow : (sofar : Nat) → (a k : Int) → Int

/-- `a mod m` for a < 0 or m < 1. -/
opaque unstatedMod : (sofar : Nat) → (a m : Int) → Int

/-- `floor(a / b)` for a < 0 or b < 1. -/
opaque unstatedQuotient : (sofar : Nat) → (a b : Int) → Int

/-- `v[hi:lo]` for v < 0, lo < 0 or hi < lo, before it is cut to its hi - lo + 1 bits (R10: an unsigned
integer). -/
opaque unstatedSlice : (sofar : Nat) → (v hi lo : Int) → Nat

/-- What `wr REG, value` writes for a value that is no 64-bit value. -/
opaque unstatedWrite : (sofar : Nat) → (value : Int) → Word

/-- Where `goto label` goes in a script that does not declare the label. -/
opaque unstatedTarget : (sofar : Nat) → (label : Nat) → Nat

end Sys2Proof.Config
end

