-- ==== Sys2Proof/Machine/State.lean ====
section
/-! DEFINITION. The state of the block and of the agents around it, as plain data, its reset, and the
reasons a step can stop (10_state.md; 70_reset_and_hazards.md R180; 20_memory.md R55). -/

namespace Sys2Proof.Machine

/-- STATUS (R22); its reserved bits have no storage and read 0. -/
structure Status where
  busy : Bool
  done : Bool
  err : Bool
  ovr : Bool
  errcode : BitVec 4
  deriving DecidableEq, Repr

/-- CONFIG (R25): the worker count W and the strategy PART, stored as written. -/
structure ConfigReg where
  w : BitVec 8
  part : BitVec 2
  deriving DecidableEq, Repr

/-- The causes of an error (60_exceptions.md R151). -/
inductive ErrorCode
  | zeroModulus | zeroWorkers | illegalCmd | badConfig
  deriving DecidableEq, Repr

/-- The command held in lat.cmd (R31; log 5). -/
inductive LatchedCmd
  | modmul | modexp
  deriving DecidableEq, Repr

/-- The command latches (R31). `sets` is lat.S, the chosen subsets of a PART = 2 command. -/
structure Latches where
  cmd : LatchedCmd
  a : Word
  b : Word
  m : Word
  w : BitVec 8
  part : BitVec 2
  sets : List (List BitIndex)
  deriving DecidableEq, Repr

/-- The controller state (R32). -/
inductive Eng
  | idle | mul | exp
  deriving DecidableEq, Repr

/-- The phase of a worker lane (R33). -/
inductive Phase
  | off | run | ready | combined
  deriving DecidableEq, Repr

/-- A worker lane wk[k] (R33); `todo` is a set of bit indices, held as a list (log 20). -/
structure Lane where
  ph : Phase
  lb : Word
  p : BitIndex
  lr : Word
  todo : List BitIndex
  deriving DecidableEq, Repr

/-- Whose turn it is (00_scope.md R13), and the reset input (R180; log 3). -/
inductive Turn
  | host
  | controller
  | worker (k : Nat)
  | reset
  deriving DecidableEq, Repr

/-- The machine. The fields down to `acc` are the block's (R20 to R34), `errlog` and `ovrlog` the spec's
bookkeeping (R36), the rest the model's own: the host's script, position and bus history, the turns
already decided and the counter of the free values (log 1, log 13). -/
structure State where
  status : Status
  config : ConfigReg
  caps : BitVec 8
  opa : Word
  opb : Word
  mod : Word
  result : Word
  lat : Latches
  eng : Eng
  lanes : List Lane
  acc : Word
  errlog : List ErrorCode
  ovrlog : Nat
  script : List ScriptLine
  scriptPos : Nat
  trace : List BusEvent
  turns : List Turn
  draws : Nat
  deriving DecidableEq, Repr

/-- Why a bus access is refused (20_memory.md R55). -/
inductive BusFaultKind
  | width | misaligned
  deriving DecidableEq, Repr

/-- Why a step stops. -/
inductive Fault
  /-- A refused bus access ends the host agent's run (R55, U14). Raised by the host's bus access; safe:
  the block's state is unchanged and only the host, the platform's, does not go on. -/
  | bus (kind : BusFaultKind)
  /-- A step would evaluate `modmul` at modulus 0, where it has no value (40_modmul.md R91). Raised by
  MODMUL completion, SQUARE, ABSORB and COMBINE in states with lat.m = 0, which no run reaches; safe. -/
  | modmulZero
  deriving DecidableEq, Repr

/-- Why an instruction has no meaning in the model. -/
inductive Refusal
  /-- Raised by an arm of `exec` whose instruction is not modelled; safe: the machine stops. -/
  | notModelled (mnemonic : String)
  deriving DecidableEq, Repr

/-- The latches after reset: unspecified in R31, R180; zero here (DESIGN CHOICE, log 4 and log 5). -/
def Latches.atReset : Latches :=
  { cmd := .modmul, a := 0, b := 0, m := 0, w := 0, part := 0, sets := [] }

/-- A lane after reset: OFF (R33); its data are unspecified there and zero here (DESIGN CHOICE, log 4). -/
def Lane.atReset : Lane := { ph := .off, lb := 0, p := 0, lr := 0, todo := [] }

/-- The machine right after reset (R20, R32, R33, R36, R180), with no script placed (log 13, log 14). -/
def State.reset : State :=
  { status := { busy := false, done := false, err := false, ovr := false, errcode := 0 }
    config := { w := 1, part := 0 }
    caps := Config.wMax
    opa := 0
    opb := 0
    mod := 0
    result := 0
    lat := Latches.atReset
    eng := .idle
    lanes := List.replicate Config.wMax.toNat Lane.atReset
    acc := 0
    errlog := []
    ovrlog := 0
    script := []
    scriptPos := 0
    trace := []
    turns := []
    draws := 0 }

/-! One named update per field that a step writes; their laws are in Sys2Proof/Laws/State.lean. -/

def State.setStatus (s : State) (v : Status) : State := { s with status := v }
def State.setConfig (s : State) (v : ConfigReg) : State := { s with config := v }
def State.setOpa (s : State) (v : Word) : State := { s with opa := v }
def State.setOpb (s : State) (v : Word) : State := { s with opb := v }
def State.setMod (s : State) (v : Word) : State := { s with mod := v }
def State.setResult (s : State) (v : Word) : State := { s with result := v }
def State.setLat (s : State) (v : Latches) : State := { s with lat := v }
def State.setEng (s : State) (v : Eng) : State := { s with eng := v }
def State.setLanes (s : State) (v : List Lane) : State := { s with lanes := v }
def State.setAcc (s : State) (v : Word) : State := { s with acc := v }
def State.setErrlog (s : State) (v : List ErrorCode) : State := { s with errlog := v }
def State.setOvrlog (s : State) (v : Nat) : State := { s with ovrlog := v }
def State.setScriptPos (s : State) (v : Nat) : State := { s with scriptPos := v }
def State.setTrace (s : State) (v : List BusEvent) : State := { s with trace := v }
def State.setTurns (s : State) (v : List Turn) : State := { s with turns := v }
def State.setDraws (s : State) (v : Nat) : State := { s with draws := v }

end Sys2Proof.Machine
end

