-- ==== Sys2Proof/Machine/Flags.lean ====
section
/-! DEFINITION. Every computation of STATUS bits, and the words that STATUS and CONFIG read as
(10_state.md R22, R25; 60_exceptions.md R151, R153). -/

namespace Sys2Proof.Machine

/-- The value of STATUS.ERRCODE for a cause (R151). -/
def ErrorCode.code : ErrorCode → BitVec 4
  | .zeroModulus => 1
  | .zeroWorkers => 2
  | .illegalCmd => 3
  | .badConfig => 4

/-- Acceptance of MODMUL or MODEXP (40_modmul.md R92, 41_modexp.md R105); OVR unchanged. -/
def Status.accepted (st : Status) : Status :=
  { st with busy := true, done := false, err := false, errcode := 0 }

/-- Completion (40_modmul.md R93, 42_reduction.md R133). -/
def Status.completed (st : Status) : Status :=
  { st with busy := false, done := true }

/-- CLEAR (43_control.md R140). -/
def Status.cleared (st : Status) : Status :=
  { st with done := false, err := false, errcode := 0, ovr := false }

/-- Error entry (60_exceptions.md R153); BUSY and OVR unchanged. -/
def Status.failed (st : Status) (c : ErrorCode) : Status :=
  { st with err := true, errcode := c.code, done := false }

/-- Overrun (43_control.md R144). -/
def Status.overran (st : Status) : Status :=
  { st with ovr := true }

/-- What STATUS reads as (43_control.md R142): ERRCODE, OVR, ERR, DONE, BUSY below 56 zero bits. -/
def Status.toWord (st : Status) : Word :=
  (0 : BitVec 56) ++ st.errcode ++ BitVec.ofBool st.ovr ++ BitVec.ofBool st.err ++ BitVec.ofBool st.done
    ++ BitVec.ofBool st.busy

/-- What CONFIG reads as (R142): PART above W, 0 above both. -/
def ConfigReg.toWord (c : ConfigReg) : Word := (0 : BitVec 54) ++ c.part ++ c.w

/-- What a write stores in CONFIG (R25, R143): bits [9:0] as written. -/
def ConfigReg.ofWord (v : Word) : ConfigReg :=
  { w := v.extractLsb' 0 8, part := v.extractLsb' 8 2 }

end Sys2Proof.Machine
end

