-- ==== Sys2Proof/Machine/Partition.lean ====
section
/-! DEFINITION. The work assignment of a MODEXP: which bit indices each worker owns (41_modexp.md R101 to
R104), and the least index of a set. -/

namespace Sys2Proof.Machine

/-- `S_striped(W, k)` (R101). -/
def stripedSet (w k : Nat) : List BitIndex :=
  allIndices.filter fun i => decide (i.val % w = k)

/-- The first index of worker k's contiguous block (R102). -/
def contigStart (w k : Nat) : Nat :=
  let q := 64 / w
  let r := 64 % w
  if k < r then k * (q + 1) else r * (q + 1) + (k - r) * q

/-- The number of indices in worker k's contiguous block (R102). -/
def contigLength (w k : Nat) : Nat :=
  if k < 64 % w then 64 / w + 1 else 64 / w

/-- `S_contig(W, k)` (R102). -/
def contigSet (w k : Nat) : List BitIndex :=
  allIndices.filter fun i =>
    decide (contigStart w k ≤ i.val) && decide (i.val < contigStart w k + contigLength w k)

/-- `PARTITION_ANY(W)` in one draw (R103): the free owner function of Config decides (log 8). -/
def partitionAny (draw w : Nat) : List (List BitIndex) :=
  (List.range w).map fun k => allIndices.filter fun i => decide (Config.partitionOwner draw w i % w = k)

/-- `S(W, k)` as lat.part says (R104). PART = 3 is rejected at issue (60_exceptions.md R152), so its set is
never used (log 20). -/
def assignedSet (lat : Latches) (k : Nat) : List BitIndex :=
  if lat.part = 0#2 then stripedSet lat.w.toNat k
  else if lat.part = 1#2 then contigSet lat.w.toNat k
  else if lat.part = 2#2 then lat.sets.getD k []
  else []

/-- `min(todo)`, the least index of a set (R107, R108). -/
def minIndex : List BitIndex → Option BitIndex
  | [] => none
  | i :: rest =>
    match minIndex rest with
    | none => some i
    | some j => if i < j then some i else some j

end Sys2Proof.Machine
end

