-- ==== Sys2Proof/Machine/Operands.lean ====
section
/-! DEFINITION. The operands of a command: implicit, read from the host registers and copied into the
latches in the step of the CTRL write (30_encoding.md R71; 10_state.md R31). -/

namespace Sys2Proof.Machine

/-- The latches after acceptance of MODMUL (40_modmul.md R92); CONFIG is not read (log 23). -/
def latchModmul (s : State) : Latches :=
  { s.lat with cmd := .modmul, a := s.opa, b := s.opb, m := s.mod }

/-- The latches after acceptance of MODEXP (41_modexp.md R105); lat.S is written for PART = 2 only. -/
def latchModexp (s : State) : Latches :=
  { cmd := .modexp, a := s.opa, b := s.opb, m := s.mod, w := s.config.w, part := s.config.part,
    sets := if s.config.part = 2#2 then partitionAny s.draws s.config.w.toNat else s.lat.sets }

/-- The counter of the free values after the draw that PART = 2 makes (R103, log 8). -/
def drawsAfterLatch (s : State) : Nat :=
  if s.config.part = 2#2 then s.draws + 1 else s.draws

end Sys2Proof.Machine
end

