-- ==== Sys2Proof/Machine/Ops.lean ====
section
/-! DEFINITION. The shared operations on the state: overrun, error entry, the busy check of a command
issue, and reading and writing the registers of the window. -/

namespace Sys2Proof.Machine

/-- What a step answers. -/
abbrev Result := Host.Outcome State Fault Refusal

/-- `overrun()` (43_control.md R144). -/
def overrun (s : State) : State :=
  (s.setStatus s.status.overran).setOvrlog (s.ovrlog + 1)

/-- `raise Error(code)`, the error entry (60_exceptions.md R153): the one operation every error takes.
There is no return from it (R155): an accepted command clears the error. -/
def raiseError (c : ErrorCode) (s : State) : State :=
  (s.setStatus (s.status.failed c)).setErrlog (s.errlog ++ [c])

/-- The busy check of a command issue (30_encoding.md R73): a CTRL write while BUSY = 1 is an overrun. -/
def issue (accept : State → State) (s : State) : Result :=
  if s.status.busy then .next (overrun s) else .next (accept s)

/-- The procedure of a reserved code written while idle (43_control.md R141). -/
def illegalCommand (s : State) : State := raiseError .illegalCmd s

/-- The offset of a register (10_state.md R20). -/
def Reg.offset : Reg → Nat
  | .ctrl => 0x00
  | .status => 0x08
  | .config => 0x10
  | .caps => 0x18
  | .opa => 0x20
  | .opb => 0x28
  | .mod => 0x30
  | .result => 0x38

/-- The value a register reads as (43_control.md R142); a read changes no state (20_memory.md R56). -/
def readRegister (r : Reg) (s : State) : Word :=
  match r with
  | .ctrl => 0
  | .status => s.status.toWord
  | .config => s.config.toWord
  | .caps => s.caps.setWidth 64
  | .opa => s.opa
  | .opb => s.opb
  | .mod => s.mod
  | .result => s.result

/-- What a write of a register other than CTRL does (43_control.md R143): STATUS, CAPS and RESULT ignore
it. (CTRL has no storage: its write is the command issue of `busWrite`.) -/
def writeRegister (r : Reg) (v : Word) (s : State) : State :=
  match r with
  | .ctrl | .status | .caps | .result => s
  | .config => s.setConfig (ConfigReg.ofWord v)
  | .opa => s.setOpa v
  | .opb => s.setOpb v
  | .mod => s.setMod v

/-- The register whose eight bytes hold the window byte at this offset (R20: eight registers, no hole). -/
def registerOfByte (off : Nat) : Reg :=
  match off / 8 with
  | 0 => .ctrl
  | 1 => .status
  | 2 => .config
  | 3 => .caps
  | 4 => .opa
  | 5 => .opb
  | 6 => .mod
  | _ => .result

/-- The byte of the window at an offset 0x00 to 0x3F: byte lane j of a register carries bits [8j+7 : 8j]
(20_memory.md R54). -/
def windowByte (s : State) (off : Nat) : Byte :=
  byteLane (readRegister (registerOfByte off) s) (off % 8)

end Sys2Proof.Machine
end

