-- ==== Sys2Proof/Machine/Control.lean ====
section
/-! DEFINITION. The control commands: CLEAR and the reserved codes (43_control.md R140, R141). -/

namespace Sys2Proof.Machine

/-- `do_clear()` (R140): no state but STATUS changes. -/
def doClear (s : State) : State := s.setStatus s.status.cleared

/-- CLEAR (R140). -/
def execClear (_ign : BitVec 60) (s : State) : Result := issue doClear s

/-- RESERVED_0x3 (R141). -/
def execReserved3 (_ign : BitVec 60) (s : State) : Result := issue illegalCommand s

/-- RESERVED_0x4 (R141). -/
def execReserved4 (_ign : BitVec 60) (s : State) : Result := issue illegalCommand s

/-- RESERVED_0x5 (R141). -/
def execReserved5 (_ign : BitVec 60) (s : State) : Result := issue illegalCommand s

/-- RESERVED_0x6 (R141). -/
def execReserved6 (_ign : BitVec 60) (s : State) : Result := issue illegalCommand s

/-- RESERVED_0x7 (R141). -/
def execReserved7 (_ign : BitVec 60) (s : State) : Result := issue illegalCommand s

/-- RESERVED_0x8 (R141). -/
def execReserved8 (_ign : BitVec 60) (s : State) : Result := issue illegalCommand s

/-- RESERVED_0x9 (R141). -/
def execReserved9 (_ign : BitVec 60) (s : State) : Result := issue illegalCommand s

/-- RESERVED_0xA (R141). -/
def execReservedA (_ign : BitVec 60) (s : State) : Result := issue illegalCommand s

/-- RESERVED_0xB (R141). -/
def execReservedB (_ign : BitVec 60) (s : State) : Result := issue illegalCommand s

/-- RESERVED_0xC (R141). -/
def execReservedC (_ign : BitVec 60) (s : State) : Result := issue illegalCommand s

/-- RESERVED_0xD (R141). -/
def execReservedD (_ign : BitVec 60) (s : State) : Result := issue illegalCommand s

/-- RESERVED_0xE (R141). -/
def execReservedE (_ign : BitVec 60) (s : State) : Result := issue illegalCommand s

/-- RESERVED_0xF (R141). -/
def execReservedF (_ign : BitVec 60) (s : State) : Result := issue illegalCommand s

end Sys2Proof.Machine
end

