-- ==== Sys2Proof/Machine/Arith.lean ====
section
/-! DEFINITION. The arithmetic of the block: the modular multiplier (40_modmul.md R90, R91), the reduction
tree of R135 and the reference exponentiation (41_modexp.md R100). -/

namespace Sys2Proof.Machine

/-- Bit i of a value (R10), for a bit index. -/
def bitOf (v : Word) (i : BitIndex) : Bool := v.getLsbD i.val

/-- The exact 128-bit product reduced modulo m and cut to 64 bits (R90); used only where m is not 0. -/
def mulReduce (a b m : Word) : Word :=
  ((a.setWidth 128 * b.setWidth 128) % m.setWidth 128).setWidth 64

/-- `modmul(a, b, m)` (R90). At m = 0 it has no value (R91: "never give it a value at m = 0"; log 16). -/
def modmul (a b m : Word) : Option Word :=
  if m = 0#64 then none else some (mulReduce a b m)

/-- The loop of `ref_modexp` (R100) over the given bit indices. -/
def refLoop (e m : Word) : List BitIndex → Word → Word → Option Word
  | [], r, _ => some r
  | i :: rest, r, sq =>
    match (if bitOf e i then modmul r sq m else some r), modmul sq sq m with
    | some r', some sq' => refLoop e m rest r' sq'
    | _, _ => none

/-- `ref_modexp(x, e, m)` (R100), for m >= 1; no value at m = 0. -/
def refModexp (x e m : Word) : Option Word :=
  if m = 0#64 then none else refLoop e m allIndices (1#64 % m) (x % m)

/-- A collective reduction (42_reduction.md R135): a binary tree of `modmul` nodes over leaf values. -/
inductive ReduceTree
  | leaf (v : Word)
  | node (l r : ReduceTree)
  deriving DecidableEq, Repr

/-- The leaf values of a reduction tree, from left to right. -/
def ReduceTree.leaves : ReduceTree → List Word
  | .leaf v => [v]
  | .node l r => l.leaves ++ r.leaves

/-- The value at the root of a reduction tree. -/
def ReduceTree.root (m : Word) : ReduceTree → Option Word
  | .leaf v => some v
  | .node l r =>
    match l.root m, r.root m with
    | some x, some y => modmul x y m
    | _, _ => none

end Sys2Proof.Machine
end

