-- ==== Sys2Proof/Machine/ModExp.lean ====
section
/-! DEFINITION. MODEXP: acceptance, worker initialisation, and the worker steps SQUARE and ABSORB
(41_modexp.md R105 to R111). -/

namespace Sys2Proof.Machine

/-- `init_worker(k)` (R106) with the new latches. A lane whose set is empty is READY at once (R109,
log 15). -/
def initLane (lat : Latches) (k : Nat) (l : Lane) : Lane :=
  if k < lat.w.toNat then
    { ph := if assignedSet lat k = [] then .ready else .run
      lb := lat.a % lat.m
      p := 0
      lr := 1#64
      todo := assignedSet lat k }
  else { l with ph := .off }

/-- The accepted case of `accept_modexp()` (R105): latches, accumulator (42_reduction.md R130), lanes,
STATUS and eng. -/
def startModexp (s : State) : State :=
  let lat := latchModexp s
  (((((s.setLat lat).setDraws (drawsAfterLatch s)).setAcc (1#64 % lat.m)).setLanes
    (s.lanes.mapIdx (initLane lat))).setStatus s.status.accepted).setEng .exp

/-- `accept_modexp()` (R105): the checks in the order written (60_exceptions.md R152, R154). -/
def acceptModexp (s : State) : State :=
  if s.mod = 0#64 then raiseError .zeroModulus s
  else if s.config.w = 0#8 then raiseError .zeroWorkers s
  else if s.caps < s.config.w ∨ s.config.part = 3#2 then raiseError .badConfig s
  else startModexp s

/-- MODEXP (R105). -/
def execModexp (_ign : BitVec 60) (s : State) : Result := issue acceptModexp s

/-- The lane after SQUARE (R107) with the squared base. -/
def Lane.squared (l : Lane) (lb : Word) : Lane := { l with lb := lb, p := l.p + 1 }

/-- SQUARE, a step of worker k whose lane is l (R107). -/
def squareStep (k : Nat) (l : Lane) (s : State) : Result :=
  match modmul l.lb l.lb s.lat.m with
  | none => .fault .modmulZero
  | some lb => .next (s.setLanes (s.lanes.set k (l.squared lb)))

/-- `todo \ {i}` (R108). -/
def withoutIndex (todo : List BitIndex) (i : BitIndex) : List BitIndex :=
  todo.filter fun j => decide (j ≠ i)

/-- The lane after ABSORB of its index p (R108) with the partial product `lr`. -/
def Lane.absorbed (l : Lane) (lr : Word) : Lane :=
  { l with
    lr := lr
    todo := withoutIndex l.todo l.p
    ph := if withoutIndex l.todo l.p = [] then .ready else l.ph }

/-- ABSORB, a step of worker k whose lane is l (R108): a clear bit leaves lr unchanged. -/
def absorbStep (k : Nat) (l : Lane) (s : State) : Result :=
  if bitOf s.lat.b l.p then
    match modmul l.lr l.lb s.lat.m with
    | none => .fault .modmulZero
    | some lr => .next (s.setLanes (s.lanes.set k (l.absorbed lr)))
  else .next (s.setLanes (s.lanes.set k (l.absorbed l.lr)))

end Sys2Proof.Machine
end

