-- ==== Sys2Proof/Machine/ModMul.lean ====
section
/-! DEFINITION. MODMUL: acceptance and completion (40_modmul.md R92, R93). -/

namespace Sys2Proof.Machine

/-- The accepted case of `accept_modmul()` (R92). -/
def startModmul (s : State) : State :=
  ((s.setLat (latchModmul s)).setStatus s.status.accepted).setEng .mul

/-- `accept_modmul()` (R92): ZERO_MODULUS when MOD = 0, else the command starts. -/
def acceptModmul (s : State) : State :=
  if s.mod = 0#64 then raiseError .zeroModulus s else startModmul s

/-- MODMUL (R92). -/
def execModmul (_ign : BitVec 60) (s : State) : Result := issue acceptModmul s

/-- `complete_modmul()` (R93), enabled when eng = MUL: RESULT and STATUS in one step (20_memory.md R60). -/
def completeModmul (s : State) : Result :=
  match modmul s.lat.a s.lat.b s.lat.m with
  | none => .fault .modmulZero
  | some r => .next (((s.setResult r).setStatus s.status.completed).setEng .idle)

end Sys2Proof.Machine
end

