-- ==== Sys2Proof/Machine/Dispatch.lean ====
section
/-! DEFINITION. One arm per command (30_encoding.md R72, R73). -/

namespace Sys2Proof.Machine

def exec (i : Instr) (s : State) : Host.Outcome State Fault Refusal :=
  match i with
  | .clear ign => Sys2Proof.Machine.execClear ign s
  | .modmul ign => Sys2Proof.Machine.execModmul ign s
  | .modexp ign => Sys2Proof.Machine.execModexp ign s
  | .reserved3 ign => Sys2Proof.Machine.execReserved3 ign s
  | .reserved4 ign => Sys2Proof.Machine.execReserved4 ign s
  | .reserved5 ign => Sys2Proof.Machine.execReserved5 ign s
  | .reserved6 ign => Sys2Proof.Machine.execReserved6 ign s
  | .reserved7 ign => Sys2Proof.Machine.execReserved7 ign s
  | .reserved8 ign => Sys2Proof.Machine.execReserved8 ign s
  | .reserved9 ign => Sys2Proof.Machine.execReserved9 ign s
  | .reservedA ign => Sys2Proof.Machine.execReservedA ign s
  | .reservedB ign => Sys2Proof.Machine.execReservedB ign s
  | .reservedC ign => Sys2Proof.Machine.execReservedC ign s
  | .reservedD ign => Sys2Proof.Machine.execReservedD ign s
  | .reservedE ign => Sys2Proof.Machine.execReservedE ign s
  | .reservedF ign => Sys2Proof.Machine.execReservedF ign s

end Sys2Proof.Machine
end

