-- ==== Sys2Proof/Machine/Bus.lean ====
section
/-! DEFINITION. The bus: which accesses the window admits, and what an admitted access does
(20_memory.md R50 to R57; 43_control.md R142, R143). -/

namespace Sys2Proof.Machine

/-- What the block makes of an access: not its own (R53), refused (R55), or admitted at a register. -/
inductive Admission
  | elsewhere
  | refused (kind : BusFaultKind)
  | admitted (r : Reg)
  deriving DecidableEq, Repr

/-- The number of bytes an access spans. -/
def AccessWidth.bytes : AccessWidth → Int
  | .w8 => 1
  | .w16 => 2
  | .w32 => 4
  | .w64 => 8
  | .w128 => 16

/-- The register at an offset, for the offsets that are multiples of 8 in the window (R20, R52). -/
def registerAt (off : Int) : Option Reg :=
  match off with
  | 0x00 => some .ctrl
  | 0x08 => some .status
  | 0x10 => some .config
  | 0x18 => some .caps
  | 0x20 => some .opa
  | 0x28 => some .opb
  | 0x30 => some .mod
  | 0x38 => some .result
  | _ => none

/-- Some byte of the access lies in the window BASE + 0x00 to BASE + 0x3F (R50; log 11). -/
def touchesWindow (off : Int) (width : AccessWidth) : Bool :=
  decide (off < 64) && decide (0 < off + width.bytes)

/-- The admission of an access: 64 bits wide (R51) and at a multiple of 8 (R52), refused otherwise (R55).
The width is tested first (log 10). -/
def admission (off : Int) (width : AccessWidth) : Admission :=
  if touchesWindow off width then
    if width = .w64 then
      match registerAt off with
      | some r => .admitted r
      | none => .refused .misaligned
    else .refused .width
  else .elsewhere

/-- The bus address of an offset (R50, R65), and the offset of a bus address. -/
def busAddress (off : Int) : Int := Config.base + off

def offsetOfAddress (addr : Int) : Int := addr - Config.base

/-- BusRead of a register (R142): the host gets the value under the name its script gives it; the block
does not change (R56). -/
def busRead (r : Reg) (name : ScriptName) (s : State) : Result :=
  .next (s.setTrace (s.trace ++ [.read r (readRegister r s) name]))

/-- BusWrite of a register (R143): a CTRL write issues the command it decodes to (30_encoding.md R73). -/
def busWrite (r : Reg) (v : Word) (s : State) : Result :=
  let logged := s.setTrace (s.trace ++ [.wrote r v])
  match r with
  | .ctrl => exec (decodeWord v) logged
  | .status | .config | .caps | .opa | .opb | .mod | .result => .next (writeRegister r v logged)

/-- One access of a bus agent. A refused one ends the host agent's run (R55); one that does not touch the
window leaves the block alone (R53, log 11). -/
def busAccess (a : BusAccess) (s : State) : Result :=
  match a with
  | .read off width =>
    match admission off width with
    | .elsewhere => .next s
    | .refused kind => .fault (.bus kind)
    | .admitted r => busRead r (.reg r) s
  | .write off width v =>
    match admission off width with
    | .elsewhere => .next s
    | .refused kind => .fault (.bus kind)
    | .admitted r => busWrite r v s

end Sys2Proof.Machine
end

