-- ==== Sys2Proof/Machine/HostAgent.lean ====
section
/-! DEFINITION. The host agent: the expressions and conditions of its script, one script line as a step,
the pseudo-instructions, and the text of a transaction (30_encoding.md R75 to R77; log 12, log 24). -/

namespace Sys2Proof.Machine

/-- The value last bound to a name. -/
def boundValue : List BusEvent → ScriptName → Option Word
  | [], _ => none
  | e :: later, x =>
    match boundValue later x with
    | some v => some v
    | none =>
      match e with
      | .wrote _ _ => none
      | .read _ v y => if y = x then some v else none

/-- The value of a name: the one last bound to it, free where nothing has bound it (log 24). -/
def nameValue (bound : List BusEvent) (x : ScriptName) : Int :=
  match boundValue bound x with
  | some v => v.toNat
  | none => Config.unboundName bound.length x

/-- `2^k` and other powers, for k >= 0 (00_scope.md R9); free otherwise (log 24). -/
def powValue (sofar : Nat) (x k : Int) : Int :=
  if 0 ≤ k then x ^ k.toNat else Config.unstatedPow sofar x k

/-- `a mod m` for a >= 0, m >= 1 (R9); free otherwise (log 24). -/
def modValue (sofar : Nat) (a m : Int) : Int :=
  if 0 ≤ a ∧ 1 ≤ m then a % m else Config.unstatedMod sofar a m

/-- `floor(a / b)` for a >= 0, b >= 1 (R9, 41_modexp.md R102); free otherwise (log 24). -/
def floorValue (sofar : Nat) (a b : Int) : Int :=
  if 0 ≤ a ∧ 1 ≤ b then a / b else Config.unstatedQuotient sofar a b

/-- `v[hi:lo]` for v >= 0 and hi >= lo >= 0 (R10). Otherwise free (log 24), and of hi - lo + 1 bits where
that is a number of bits. -/
def sliceValue (sofar : Nat) (v hi lo : Int) : Int :=
  if 0 ≤ v ∧ 0 ≤ lo ∧ lo ≤ hi then v / 2 ^ lo.toNat % 2 ^ (hi - lo + 1).toNat
  else if lo ≤ hi then (Config.unstatedSlice sofar v hi lo : Int) % 2 ^ (hi - lo + 1).toNat
  else Config.unstatedSlice sofar v hi lo

/-- The value of an expression over unbounded integers (R9, R10), after the transactions `bound`. -/
def Expr.eval (bound : List BusEvent) : Expr → Int
  | .num n => n
  | .name x => nameValue bound x
  | .add a b => a.eval bound + b.eval bound
  | .sub a b => a.eval bound - b.eval bound
  | .mul a b => a.eval bound * b.eval bound
  | .pow a k => powValue bound.length (a.eval bound) (k.eval bound)
  | .mod a m => modValue bound.length (a.eval bound) (m.eval bound)
  | .floorDiv a b => floorValue bound.length (a.eval bound) (b.eval bound)
  | .bit v i => sliceValue bound.length (v.eval bound) (i.eval bound) (i.eval bound)
  | .slice v hi lo => sliceValue bound.length (v.eval bound) (hi.eval bound) (lo.eval bound)

/-- The truth of a condition. -/
def Cond.eval (bound : List BusEvent) : Cond → Bool
  | .eq a b => decide (a.eval bound = b.eval bound)
  | .ne a b => decide (a.eval bound ≠ b.eval bound)
  | .lt a b => decide (a.eval bound < b.eval bound)
  | .le a b => decide (a.eval bound ≤ b.eval bound)
  | .and c d => c.eval bound && d.eval bound
  | .or c d => c.eval bound || d.eval bound
  | .not c => !c.eval bound

/-- The 64-bit value of an integer, free where it has none (log 24). -/
def wordValue (sofar : Nat) (x : Int) : Word :=
  if 0 ≤ x ∧ x < 2 ^ 64 then BitVec.ofNat 64 x.toNat else Config.unstatedWrite sofar x

/-- What a `wr` line writes (R75: "write the 64-bit value"). -/
def writtenValue (bound : List BusEvent) (e : Expr) : Word := wordValue bound.length (e.eval bound)

/-- The position of a label in a script: its first declaration, where a script declares it twice, which R75
leaves open (DESIGN CHOICE, log 26). -/
def labelPosition (l : Nat) : List ScriptLine → Option Nat
  | [] => none
  | line :: rest => if line = .label l then some 0 else (labelPosition l rest).map (· + 1)

/-- Where a branch goes: to its label, anywhere where the script has no such label (log 24). -/
def branchTarget (sofar l : Nat) (script : List ScriptLine) : Nat :=
  match labelPosition l script with
  | some pos => pos
  | none => Config.unstatedTarget sofar l

/-- One script line (R75), from the state in which the host stands at the next line. -/
def runLine (line : ScriptLine) (s : State) : Result :=
  match line with
  | .wr r e => busWrite r (writtenValue s.trace e) s
  | .rd r => busRead r (.reg r) s
  | .rdAs r name => busRead r name s
  | .label _ => .next s
  | .ifGoto c l =>
    if c.eval s.trace then .next (s.setScriptPos (branchTarget s.trace.length l s.script)) else .next s
  | .comment => .next s
  | .access a => busAccess a s

/-- A step of the host agent; a host at the end of its script takes none. -/
def hostStep (s : State) : Result :=
  match s.script[s.scriptPos]? with
  | some line => runLine line (s.setScriptPos (s.scriptPos + 1))
  | none => .next s

/-- The name `s` of R76's expansion of `wait`. -/
def ScriptName.s : ScriptName := .user 0

/-- The condition `s[0] = 1` of R76's expansion of `wait`. -/
def stillBusy : Cond := .eq (.bit (.name ScriptName.s) (.num 0)) (.num 1)

/-- The expansion of `wait` (R76): a polling loop at a fresh label. -/
def waitLines (fresh : Nat) : List ScriptLine :=
  [.label fresh, .rdAs .status ScriptName.s, .ifGoto stillBusy fresh]

/-- `wr OPA, a ; wr OPB, b ; wr MOD, m`, the command, `wait ; rd STATUS ; rd RESULT` (R76). -/
def commandLines (a b m : Expr) (code : Nat) (fresh : Nat) : List ScriptLine :=
  [.wr .opa a, .wr .opb b, .wr .mod m, .wr .ctrl (.num code)] ++ waitLines fresh ++ [.rd .status, .rd .result]

/-- The expansions of R76. -/
def Pseudo.expand : Pseudo → List ScriptLine
  | .clear => [.wr .ctrl (.num 0x0)]
  | .modmul => [.wr .ctrl (.num 0x1)]
  | .modexp => [.wr .ctrl (.num 0x2)]
  | .config w part => [.wr .config (.num (256 * part.toNat + w.toNat))]
  | .wait fresh => waitLines fresh
  | .modmulOf a b m fresh => commandLines a b m 0x1 fresh
  | .modexpOf x e m fresh => commandLines x e m 0x2 fresh

/-- The last `n` hexadecimal digits of a number. -/
def hexDigits : Nat → Nat → List Char
  | 0, _ => []
  | n + 1, v => hexDigits n (v / 16) ++ [Nat.digitChar (v % 16) |>.toUpper]

/-- The text of a transaction (R77): `W off data` for a write, `R off` for a read. -/
def BusEvent.text : BusEvent → List Char
  | .wrote r v => ['W', ' ', '0', 'x'] ++ hexDigits 2 r.offset ++ [' ', '0', 'x'] ++ hexDigits 16 v.toNat
  | .read r _ _ => ['R', ' ', '0', 'x'] ++ hexDigits 2 r.offset

end Sys2Proof.Machine
end

