-- ==== Sys2Proof/Machine/Reduction.lean ====
section
/-! DEFINITION. The accumulator and the reduction: COMBINE and MODEXP completion (42_reduction.md R131,
R133). The accumulator form serves both reduction styles (R135, log 9). -/

namespace Sys2Proof.Machine

/-- The lane after its COMBINE (R131). -/
def Lane.joined (l : Lane) : Lane := { l with ph := .combined }

/-- COMBINE, a step of worker k whose lane is l (R131): the read and the write of acc are one step. -/
def combineStep (k : Nat) (l : Lane) (s : State) : Result :=
  match modmul s.acc l.lr s.lat.m with
  | none => .fault .modmulZero
  | some acc => .next ((s.setAcc acc).setLanes (s.lanes.set k l.joined))

/-- Every lane k < lat.W is COMBINED (R133). -/
def allCombined (s : State) : Bool :=
  (s.lanes.take s.lat.w.toNat).all fun l => decide (l.ph = .combined)

/-- A lane at the end of a MODEXP (R133). -/
def Lane.released (l : Lane) : Lane := { l with ph := .off }

/-- `complete_modexp()` (R133): RESULT, STATUS, eng and the lanes in one step. -/
def completeModexp (s : State) : State :=
  (((s.setResult s.acc).setStatus s.status.completed).setEng .idle).setLanes (s.lanes.map Lane.released)

end Sys2Proof.Machine
end

