-- ==== Sys2Proof/Machine/Agents.lean ====
section
/-! DEFINITION. The agents and their turns: which steps of the controller and the workers are enabled,
the reset input, and the free choice among the enabled agents (00_scope.md R13; 70_reset_and_hazards.md
R180; log 1 to 3). -/

namespace Sys2Proof.Machine

/-- The steps of a worker (R13). -/
inductive WorkerAction
  | square | absorb | combine
  deriving DecidableEq, Repr

/-- The step a lane has enabled (41_modexp.md R107, R108; 42_reduction.md R131), if any. -/
def laneAction (eng : Eng) (l : Lane) : Option WorkerAction :=
  match l.ph with
  | .run =>
    match minIndex l.todo with
    | some i => if l.p < i then some .square else if l.p = i then some .absorb else none
    | none => none
  | .ready => if eng = .exp then some .combine else none
  | .off | .combined => none

/-- A turn of worker k: its enabled step, or nothing (log 2). -/
def workerStep (k : Nat) (s : State) : Result :=
  match s.lanes[k]? with
  | none => .next s
  | some l =>
    match laneAction s.eng l with
    | some .square => squareStep k l s
    | some .absorb => absorbStep k l s
    | some .combine => combineStep k l s
    | none => .next s

/-- A turn of the controller: the completion that is enabled (40_modmul.md R93; 42_reduction.md R133), or
nothing (log 2). -/
def controllerStep (s : State) : Result :=
  match s.eng with
  | .idle => .next s
  | .mul => completeModmul s
  | .exp => if allCombined s then .next (completeModexp s) else .next s

/-- The reset input (70_reset_and_hazards.md R180): every piece of the block's state takes its reset
value; the host's script and history, the turns and the draws are outside the block (log 3). -/
def applyReset (s : State) : State :=
  { State.reset with
    caps := s.caps
    lanes := List.replicate s.caps.toNat Lane.atReset
    script := s.script
    scriptPos := s.scriptPos
    trace := s.trace
    turns := s.turns
    draws := s.draws }

/-- One turn. -/
def runTurn (t : Turn) (s : State) : Result :=
  match t with
  | .host => hostStep s
  | .controller => controllerStep s
  | .worker k => workerStep k s
  | .reset => .next (applyReset s)

/-- The host has a line left to run. -/
def hostEnabled (s : State) : Bool := (s.script[s.scriptPos]?).isSome

/-- The controller has a completion enabled (R93, R133). -/
def controllerEnabled (s : State) : Bool :=
  match s.eng with
  | .idle => false
  | .mul => true
  | .exp => allCombined s

/-- Worker k has a step enabled (R107, R108, R131). -/
def workerEnabled (s : State) (k : Nat) : Bool :=
  match s.lanes[k]? with
  | none => false
  | some l => (laneAction s.eng l).isSome

/-- The turns of the enabled agents; the reset input is no agent of R13 (log 3). -/
def enabledTurns (s : State) : List Turn :=
  (if controllerEnabled s then [.controller] else []) ++
    ((List.range s.lanes.length).filter (workerEnabled s)).map .worker ++
    (if hostEnabled s then [.host] else [])

/-- The turn the free schedule picks: any enabled agent may take the next step (R13, log 1). -/
def drawTurn (s : State) : Option Turn :=
  match enabledTurns s with
  | [] => none
  | [t] => some t
  | t :: more => some ((t :: more).getD (Config.schedule s.draws % (more.length + 1)) t)

end Sys2Proof.Machine
end

