-- ==== Sys2Proof/Machine/Step.lean ====
section
/-! DEFINITION. One step of the machine (00_scope.md R13), and the placing of a command as the very next
step (log 14). -/

namespace Sys2Proof.Machine

/-- One step of one agent: the next of the turns already decided, else the turn the free schedule picks
(log 1). Where no agent is enabled the block is idle and waits (60_exceptions.md R162, log 2). -/
def step (s : State) : Host.Outcome State Fault Refusal :=
  match s.turns with
  | t :: rest => runTurn t (s.setTurns rest)
  | [] =>
    match drawTurn s with
    | some t => runTurn t (s.setDraws (s.draws + 1))
    | none => .next s

/-- The 64-bit command word whose first `nbits` bits are those of `w`, every bit above 0. -/
def tableWord (nbits w : Nat) : Word := BitVec.ofNat 64 (w % 2 ^ nbits)

/-- The state in which the very next step is the host's CTRL write of that command word: the line stands
at the host's position and the next turn is the host's (log 14). -/
def State.withFetchWord (s : State) (nbits w : Nat) : State :=
  let pos := min s.scriptPos s.script.length
  { s with
    script := s.script.take pos ++ .wr .ctrl (.num (tableWord nbits w).toNat) :: s.script.drop pos
    scriptPos := pos
    turns := .host :: s.turns }

end Sys2Proof.Machine
end

