-- ==== Sys2Proof/Safety.lean ====
section
/-! DEFINITION. What a sound state and a safe run are, in the terms the statements use: the invariants the
spec states (10_state.md R23, R32, R33; 41_modexp.md R110; 42_reduction.md R132), the work left in a
command (41_modexp.md R114), and what leaves the block alone. -/

namespace Sys2Proof.Machine

/-- The STATUS invariants of R23, and the codes 5 to 15 that are never raised (60_exceptions.md R151). -/
structure Status.Ok (st : Status) : Prop where
  busyAlone : st.busy = true → st.done = false ∧ st.err = false ∧ st.errcode = 0#4
  doneNotErr : ¬(st.done = true ∧ st.err = true)
  errIffCode : st.err = false ↔ st.errcode = 0#4
  knownCode : st.errcode.toNat ≤ 4

/-- R32: eng is not IDLE exactly when STATUS.BUSY = 1. -/
def State.EngineOk (s : State) : Prop := s.eng ≠ .idle ↔ s.status.busy = true

/-- The block has W_MAX lanes, W_MAX >= 1, and CAPS reads W_MAX (R26, R33, 00_scope.md R8). -/
def State.LanesFitted (s : State) : Prop := 1 ≤ s.caps.toNat ∧ s.lanes.length = s.caps.toNat

/-- What acceptance leaves in the latches of a running command (R31; 60_exceptions.md R152). -/
structure State.LatchOk (s : State) : Prop where
  mulLatched : s.eng = .mul → s.lat.cmd = .modmul ∧ s.lat.m ≠ 0#64
  expLatched : s.eng = .exp → s.lat.cmd = .modexp ∧ s.lat.m ≠ 0#64 ∧ 1 ≤ s.lat.w.toNat ∧
    s.lat.w.toNat ≤ s.caps.toNat ∧ s.lat.part ≠ 3#2

/-- Lane k of a running MODEXP (R33, R110, R111; 41_modexp.md R107, R108). -/
structure Lane.Ok (lat : Latches) (k : Nat) (l : Lane) : Prop where
  unusedOff : l.ph = .off ↔ lat.w.toNat ≤ k
  runningHasNext : l.ph = .run → ∃ i, minIndex l.todo = some i ∧ l.p ≤ i
  finishedEmpty : l.ph = .ready ∨ l.ph = .combined → l.todo = []
  increasing : l.ph = .run → l.todo.Pairwise (· < ·)
  owned : l.ph = .run → ∀ i ∈ l.todo, i ∈ assignedSet lat k
  base : l.ph = .run ∨ l.ph = .ready →
    l.lb.toNat = lat.a.toNat ^ (2 ^ l.p.val) % lat.m.toNat

/-- The lanes: all OFF unless a MODEXP runs (R33), and each as `Lane.Ok` says while one does. -/
structure State.LanesOk (s : State) : Prop where
  offUnlessExp : s.eng ≠ .exp → ∀ l ∈ s.lanes, l.ph = .off
  laneOk : s.eng = .exp → ∀ k l, s.lanes[k]? = some l → Lane.Ok s.lat k l

/-- The powers a lane has still to absorb: lat.a^(2^i) for the set bits i of the exponent in `todo` (R112). -/
def Lane.pendingPowers (lat : Latches) (l : Lane) : List Nat :=
  (l.todo.filter fun i => bitOf lat.b i).map fun i => lat.a.toNat ^ (2 ^ i.val)

/-- What a lane has still to multiply into `acc`: its partial product and its pending powers while it is RUN
or READY, nothing once it is COMBINED or while it is OFF (R112, R132). -/
def Lane.owed (lat : Latches) (l : Lane) : Nat :=
  match l.ph with
  | .run | .ready => l.lr.toNat * (l.pendingPowers lat).prod
  | .off | .combined => 1

/-- The accumulator of a running MODEXP (R34, R112): reduced, and together with what the lanes owe it is the
power the command computes. -/
def State.ProductOk (s : State) : Prop :=
  s.eng = .exp →
    s.acc.toNat < s.lat.m.toNat ∧
    s.acc.toNat * (s.lanes.map (Lane.owed s.lat)).prod % s.lat.m.toNat =
      s.lat.a.toNat ^ s.lat.b.toNat % s.lat.m.toNat

/-- The invariant of the machine. -/
structure State.Inv (s : State) : Prop where
  status : s.status.Ok
  engine : s.EngineOk
  fitted : s.LanesFitted
  latches : s.LatchOk
  lanes : s.LanesOk
  product : s.ProductOk

/-- A state in which a MODEXP would be accepted (60_exceptions.md R152). -/
def State.modexpLegal (s : State) : Prop :=
  s.mod ≠ 0#64 ∧ s.config.w ≠ 0#8 ∧ s.config.w ≤ s.caps ∧ s.config.part ≠ 3#2

/-- The largest index of a set, 0 for the empty one. -/
def maxIndex : List BitIndex → Nat
  | [] => 0
  | i :: rest => max i.val (maxIndex rest)

/-- The worker steps a lane has still to take (R114): SQUARE up to its last index, one ABSORB for each
index, one COMBINE. -/
def Lane.work (l : Lane) : Nat :=
  match l.ph with
  | .run => (maxIndex l.todo - l.p.val) + l.todo.length + 1
  | .ready => 1
  | .off | .combined => 0

/-- The steps of workers and controller that the running command has still to take (R114). -/
def State.work (s : State) : Nat :=
  match s.eng with
  | .idle => 0
  | .mul => 1
  | .exp => (s.lanes.map Lane.work).sum + 1

/-- The block's own state is the same in two machines (R20 to R34, R36). -/
structure SameBlock (s t : State) : Prop where
  status : t.status = s.status
  config : t.config = s.config
  caps : t.caps = s.caps
  opa : t.opa = s.opa
  opb : t.opb = s.opb
  mod : t.mod = s.mod
  result : t.result = s.result
  lat : t.lat = s.lat
  eng : t.eng = s.eng
  lanes : t.lanes = s.lanes
  acc : t.acc = s.acc
  errlog : t.errlog = s.errlog
  ovrlog : t.ovrlog = s.ovrlog

/-- The two machines are the same but for state that R31, R33 and R34 leave unspecified until a command
writes it: the latches and acc of no command in flight, the partition of a command whose PART is not 2, the
data of a lane that is neither RUN nor READY. -/
structure AgreeWhereDefined (s u : State) : Prop where
  rest : u = { s with lat := u.lat, acc := u.acc, lanes := u.lanes }
  phases : u.lanes.map Lane.ph = s.lanes.map Lane.ph
  activeLanes : ∀ (k : Nat) (l : Lane), s.lanes[k]? = some l → l.ph = .run ∨ l.ph = .ready → u.lanes[k]? = some l
  mulLatches : s.eng = .mul → u.lat.a = s.lat.a ∧ u.lat.b = s.lat.b ∧ u.lat.m = s.lat.m
  expLatches : s.eng = .exp →
    u.lat = { s.lat with sets := u.lat.sets } ∧ (s.lat.part = 2#2 → u.lat.sets = s.lat.sets) ∧ u.acc = s.acc

/-- The next step is the reset input (70_reset_and_hazards.md R180). -/
def State.resetNext (s : State) : Prop := s.turns.head? = some .reset

/-- No error was raised and no CTRL write dropped between two states (10_state.md R36; 60_exceptions.md
R157). -/
def NoErrorBetween (s t : State) : Prop := t.errlog = s.errlog ∧ t.ovrlog = s.ovrlog

/-- No access line of the host's script is refused (20_memory.md R55). -/
def State.AccessesAdmitted (s : State) : Prop :=
  ∀ a, ScriptLine.access a ∈ s.script → ∀ (u : State) (kind : BusFaultKind), busAccess a u ≠ .fault (.bus kind)

/-- The command in flight in `s` is still in flight after each of the first `n` steps. -/
def InFlightFor (n : Nat) (s : State) : Prop :=
  ∀ j ≤ n, ∃ u, Sys2Proof.core.run j s = .next u ∧ u.eng = s.eng

end Sys2Proof.Machine
end

