-- ==== Sys2Proof/Certificates/Slice0/Obligations.lean ====
section
/-! DEFINITION. The statements for the provers. Each docstring names the rule of spec/ it comes from; what
rests on the model's own choice names the log entry. -/

open Sys2Proof Sys2Proof.Machine

/-- R70, R72: words written out from the encoding decode to their commands, whatever their bits [63:4]. -/
def Obligations.WrittenWordsDecode : Prop :=
  decodeWord 0x0000000000000000 = .clear 0 ∧
  decodeWord 0x0000000000000010 = .clear 1 ∧
  decodeWord 0xFFFFFFFFFFFFFFF1 = .modmul (BitVec.allOnes 60) ∧
  decodeWord 0x0000000000000002 = .modexp 0 ∧
  decodeWord 0x0000000000000003 = .reserved3 0 ∧
  decodeWord 0x0000000000000037 = .reserved7 3 ∧
  decodeWord 0x000000000000000F = .reservedF 0

/-- R70, R72: decoding an encoded command gives it back, as a word and as bytes on the bus, and encoding
a decoded word gives the word back: no bit of a command word is dropped. -/
def Obligations.DecodeEncodeAgree : Prop :=
  (∀ i : Instr, i.wellFormed = true →
    decodeWord (encode i) = i ∧ decodeBytes (lanesOfWord (encode i)) = .ok i) ∧
  (∀ v : Word, encode (decodeWord v) = v)

/-- R72: every 64-bit value matches exactly one row of the opcode map, the row of the command it decodes
to; CLEAR, MODMUL and MODEXP are the codes 0, 1 and 2, and every other code is reserved. -/
def Obligations.EveryWordHasExactlyOneRow : Prop :=
  ∀ v : Word,
    opcodeMap.filter (fun row => row.takes v) = [⟨0xF, (decodeWord v).code.setWidth 64⟩] ∧
    (v &&& 0xF = 0x0 ↔ ∃ g, decodeWord v = .clear g) ∧
    (v &&& 0xF = 0x1 ↔ ∃ g, decodeWord v = .modmul g) ∧
    (v &&& 0xF = 0x2 ↔ ∃ g, decodeWord v = .modexp g) ∧
    (decodeWord v).code = v.extractLsb' 0 4

/-- R54: byte lane j of a register carries bits [8j+7 : 8j], and the eight lanes put together from the
lowest bus address up are the register. -/
def Obligations.ByteLanesAreLittleEndian : Prop :=
  ∀ (s : State) (r : Reg),
    (∀ j < 8, windowByte s (r.offset + j) = (readRegister r s).extractLsb' (8 * j) 8) ∧
    readRegister r s =
      wordOfLanes (windowByte s r.offset) (windowByte s (r.offset + 1)) (windowByte s (r.offset + 2))
        (windowByte s (r.offset + 3)) (windowByte s (r.offset + 4)) (windowByte s (r.offset + 5))
        (windowByte s (r.offset + 6)) (windowByte s (r.offset + 7))

/-- R140: CLEAR written while idle clears DONE, ERR, ERRCODE and OVR and changes no other state; written
while busy it is dropped as an overrun. -/
def Obligations.ClearClearsStatus : Prop :=
  ∀ (ign : BitVec 60) (s : State),
    (s.status.busy = false →
      exec (.clear ign) s =
        .next { s with status := { busy := false, done := false, err := false, ovr := false, errcode := 0 } }) ∧
    (s.status.busy = true →
      exec (.clear ign) s =
        .next { s with status := { s.status with ovr := true }, ovrlog := s.ovrlog + 1 })

/-- R141: each reserved code written while idle raises ILLEGAL_CMD (DONE <- 0, ERR <- 1, ERRCODE <- 3) and
changes no other state; written while busy it is dropped as an overrun. -/
def Obligations.ReservedCodesRaiseIllegalCmd : Prop :=
  ∀ (ign : BitVec 60) (s : State),
    ∀ i ∈ [Instr.reserved3 ign, .reserved4 ign, .reserved5 ign, .reserved6 ign, .reserved7 ign,
        .reserved8 ign, .reserved9 ign, .reservedA ign, .reservedB ign, .reservedC ign, .reservedD ign,
        .reservedE ign, .reservedF ign],
      (s.status.busy = false →
        exec i s =
          .next { s with
            status := { s.status with done := false, err := true, errcode := 3 }
            errlog := s.errlog ++ [.illegalCmd] }) ∧
      (s.status.busy = true →
        exec i s = .next { s with status := { s.status with ovr := true }, ovrlog := s.ovrlog + 1 })

/-- R144: a CTRL write while BUSY = 1, whatever its value, sets OVR, counts in ovrlog and changes nothing
else of the block; and OVR stays 1 until a CLEAR or reset. -/
def Obligations.WritesWhileBusyAreDropped : Prop :=
  (∀ (v : Word) (s : State), s.status.busy = true →
    busWrite .ctrl v s =
      .next { s with
        status := { s.status with ovr := true }
        ovrlog := s.ovrlog + 1
        trace := s.trace ++ [.wrote .ctrl v] }) ∧
  (∀ s t : State, s.status.ovr = true → step s = .next t → t.status.ovr = false →
    s.resetNext ∨ ∃ v g, t.trace = s.trace ++ [.wrote .ctrl v] ∧ decodeWord v = .clear g)

/-- R92 (acceptance): MODMUL written while idle with MOD not 0 latches OPA, OPB and MOD, sets BUSY, clears
DONE, ERR and ERRCODE, and starts; CONFIG is not read and no other state changes. -/
def Obligations.ModmulIsAccepted : Prop :=
  ∀ (ign : BitVec 60) (s : State), s.status.busy = false → s.mod ≠ 0#64 →
    exec (.modmul ign) s =
      .next { s with
        lat := { s.lat with cmd := .modmul, a := s.opa, b := s.opb, m := s.mod }
        status := { s.status with busy := true, done := false, err := false, errcode := 0 }
        eng := .mul }

/-- R105, R106, R109, R130 (acceptance): a legal MODEXP written while idle latches its operands, sets acc
to 1 mod MOD, starts the lanes below W (READY where the set is empty: log 15) and turns the others OFF, sets
BUSY and clears DONE, ERR and ERRCODE. Which partition PART = 2 draws is free (log 8). -/
def Obligations.ModexpIsAccepted : Prop :=
  ∀ (ign : BitVec 60) (s : State), s.status.busy = false → s.modexpLegal →
    ∃ t, exec (.modexp ign) s = .next t ∧
      t = { s with
        lat := { cmd := .modexp, a := s.opa, b := s.opb, m := s.mod, w := s.config.w, part := s.config.part,
                 sets := if s.config.part = 2#2 then partitionAny s.draws s.config.w.toNat else s.lat.sets }
        acc := 1#64 % s.mod
        lanes := t.lanes
        status := { s.status with busy := true, done := false, err := false, errcode := 0 }
        eng := .exp
        draws := if s.config.part = 2#2 then s.draws + 1 else s.draws } ∧
      t.lanes.length = s.lanes.length ∧
      ∀ k l, s.lanes[k]? = some l →
        t.lanes[k]? = some
          (if k < s.config.w.toNat then
            { ph := if assignedSet t.lat k = [] then .ready else .run
              lb := s.opa % s.mod, p := 0, lr := 1#64, todo := assignedSet t.lat k }
          else { l with ph := .off })

/-- R153, R154: an erroneous command written while idle records exactly one code, the first of ILLEGAL_CMD,
ZERO_MODULUS, ZERO_WORKERS and BAD_CONFIG that holds; STATUS.ERR, ERRCODE and DONE and the error log change,
and nothing else. -/
def Obligations.ErrorsAreRecordedInPriorityOrder : Prop :=
  ∀ (v : Word) (s : State), s.status.busy = false →
    let failed (c : ErrorCode) (code : BitVec 4) : State :=
      { s with
        status := { s.status with err := true, errcode := code, done := false }
        errlog := s.errlog ++ [c] }
    (2 < (v.extractLsb' 0 4).toNat → exec (decodeWord v) s = .next (failed .illegalCmd 3)) ∧
    (v.extractLsb' 0 4 = 1 → s.mod = 0#64 → exec (decodeWord v) s = .next (failed .zeroModulus 1)) ∧
    (v.extractLsb' 0 4 = 2 → s.mod = 0#64 → exec (decodeWord v) s = .next (failed .zeroModulus 1)) ∧
    (v.extractLsb' 0 4 = 2 → s.mod ≠ 0#64 → s.config.w = 0#8 →
      exec (decodeWord v) s = .next (failed .zeroWorkers 2)) ∧
    (v.extractLsb' 0 4 = 2 → s.mod ≠ 0#64 → s.config.w ≠ 0#8 → (s.caps < s.config.w ∨ s.config.part = 3#2) →
      exec (decodeWord v) s = .next (failed .badConfig 4))

/-- R30, R31, R92, R105, R140, R141, R153: what no command changes (CONFIG, CAPS, OPA, OPB, MOD, RESULT, every
byte of the window outside STATUS, the host's script, history and turns), and that the latches, lanes, acc and
draws change only where the command starts. -/
def Obligations.FrameOfCommands : Prop :=
  ∀ (i : Instr) (s t : State), s.EngineOk → exec i s = .next t →
    t.config = s.config ∧ t.caps = s.caps ∧ t.opa = s.opa ∧ t.opb = s.opb ∧ t.mod = s.mod ∧
    t.result = s.result ∧ t.script = s.script ∧ t.scriptPos = s.scriptPos ∧ t.trace = s.trace ∧
    t.turns = s.turns ∧
    (∀ off < 64, registerOfByte off ≠ .status → windowByte t off = windowByte s off) ∧
    (t.eng = s.eng → t.lat = s.lat ∧ t.lanes = s.lanes ∧ t.acc = s.acc ∧ t.draws = s.draws) ∧
    (t.eng ≠ s.eng → s.eng = .idle ∧ t.errlog = s.errlog ∧ t.ovrlog = s.ovrlog ∧
      (t.eng = .mul → t.lanes = s.lanes ∧ t.acc = s.acc ∧ t.draws = s.draws))

/-- R73: a host step at a CTRL write runs exactly the command the written value decodes to, from the state
in which the host has moved past the line and the write is in the bus history; both where the turn was
decided and where the host alone is enabled. -/
def Obligations.StepRunsDecodedCommand : Prop :=
  ∀ (s : State) (e : Expr) (v : Word) (i : Instr),
    s.script[s.scriptPos]? = some (.wr .ctrl e) → writtenValue s.trace e = v → decodeWord v = i →
    i.wellFormed = true →
    (∀ rest, s.turns = .host :: rest →
      step s =
        exec i { s with
          turns := rest, scriptPos := s.scriptPos + 1, trace := s.trace ++ [.wrote .ctrl v] }) ∧
    (s.turns = [] → enabledTurns s = [.host] →
      step s =
        exec i { s with
          draws := s.draws + 1, scriptPos := s.scriptPos + 1, trace := s.trace ++ [.wrote .ctrl v] })

/-- The model's placing of a command (log 14): the very next step runs the instruction the decoder reads
from the placed word. -/
def Obligations.PlacedWordRunsNext : Prop :=
  ∀ (s : State) (nbits w : Nat) (i : Instr), decodeTableWord nbits w = some i →
    step (s.withFetchWord nbits w) =
      exec i { s.withFetchWord nbits w with
        turns := s.turns
        scriptPos := min s.scriptPos s.script.length + 1
        trace := s.trace ++ [.wrote .ctrl (BitVec.ofNat 64 (w % 2 ^ nbits))] }

/-- R90: for m >= 1 and every a, b the multiplier gives the exact product modulo m. -/
def Obligations.ModmulIsExact : Prop :=
  ∀ a b m : Word, m ≠ 0#64 →
    a.toNat * b.toNat < 2 ^ 128 ∧ ∃ r, modmul a b m = some r ∧ r.toNat = a.toNat * b.toNat % m.toNat

/-- R95: range, commutativity, reduction of inputs, associativity, identity, zero and modulus 1. -/
def Obligations.ModmulLaws : Prop :=
  ∀ a b c m : Word, m ≠ 0#64 →
    (∃ r, modmul a b m = some r ∧ r.toNat < m.toNat) ∧
    modmul a b m = modmul b a m ∧
    modmul a b m = modmul (a % m) (b % m) m ∧
    (∃ x y r, modmul a b m = some x ∧ modmul b c m = some y ∧ modmul x c m = some r ∧ modmul a y m = some r ∧
      r.toNat = a.toNat * b.toNat * c.toNat % m.toNat) ∧
    modmul 1#64 a m = some (a % m) ∧ modmul (1#64 % m) a m = some (a % m) ∧
    modmul 0#64 a m = some 0#64 ∧
    modmul a b 1#64 = some 0#64

/-- R93: MODMUL completion is one step of the controller that writes RESULT, BUSY, DONE and eng together. -/
def Obligations.ModmulCompletion : Prop :=
  ∀ s : State, s.eng = .mul → s.lat.m ≠ 0#64 →
    ∃ r, r.toNat = s.lat.a.toNat * s.lat.b.toNat % s.lat.m.toNat ∧
      runTurn .controller s =
        .next { s with
          result := r
          status := { s.status with busy := false, done := true }
          eng := .idle }

/-- R100: the sequential reference computes x^e mod m, with x^0 = 1 and 0^0 = 1. -/
def Obligations.ReferenceIsPower : Prop :=
  ∀ x e m : Word, m ≠ 0#64 →
    ∃ r, refModexp x e m = some r ∧ r.toNat = x.toNat ^ e.toNat % m.toNat

/-- R101: the striped partition; for W > 64 the workers 64 .. W-1 own the empty set. -/
def Obligations.StripedOwnership : Prop :=
  ∀ (w k : Nat) (i : BitIndex), 1 ≤ w → k < w →
    (i ∈ stripedSet w k ↔ i.val % w = k) ∧ (64 ≤ k → stripedSet w k = [])

/-- R102: the contiguous partition, with q = floor(64 / W) and r = 64 mod W. -/
def Obligations.ContiguousBlocks : Prop :=
  ∀ (w k : Nat) (i : BitIndex), 1 ≤ w → k < w →
    let q := 64 / w
    let r := 64 % w
    (k < r → (i ∈ contigSet w k ↔ k * (q + 1) ≤ i.val ∧ i.val < k * (q + 1) + q + 1)) ∧
    (r ≤ k → (i ∈ contigSet w k ↔
      r * (q + 1) + (k - r) * q ≤ i.val ∧ i.val < r * (q + 1) + (k - r + 1) * q)) ∧
    (64 < w → (i.val = k → contigSet w k = [i]) ∧ (64 ≤ k → contigSet w k = []))

/-- R104: under every legal W and PART, the free choice of PART = 2 among them (log 8), every bit index is
owned by exactly one worker. -/
def Obligations.PartitionLaw : Prop :=
  ∀ s : State, s.modexpLegal →
    ∀ i : BitIndex, ∃ k < s.config.w.toNat, i ∈ assignedSet (latchModexp s) k ∧
      ∀ j < s.config.w.toNat, i ∈ assignedSet (latchModexp s) j → j = k

/-- R107: SQUARE squares the worker's local base modulo lat.m and moves to the next index; no other state
changes. -/
def Obligations.SquareStep : Prop :=
  ∀ (s : State) (k : Nat) (l : Lane) (i : BitIndex),
    s.lanes[k]? = some l → l.ph = .run → minIndex l.todo = some i → l.p < i → s.lat.m ≠ 0#64 →
    ∃ (lb : Word) (p : BitIndex),
      lb.toNat = l.lb.toNat * l.lb.toNat % s.lat.m.toNat ∧ p.val = l.p.val + 1 ∧
      runTurn (.worker k) s = .next { s with lanes := s.lanes.set k { l with lb := lb, p := p } }

/-- R108: ABSORB multiplies the local base into the partial product where the exponent bit is set, removes
the index and makes the worker READY when none is left; no other state changes. -/
def Obligations.AbsorbStep : Prop :=
  ∀ (s : State) (k : Nat) (l : Lane),
    s.lanes[k]? = some l → l.ph = .run → minIndex l.todo = some l.p → s.lat.m ≠ 0#64 →
    ∃ (lr : Word) (todo : List BitIndex),
      (s.lat.b.getLsbD l.p.val = true → lr.toNat = l.lr.toNat * l.lb.toNat % s.lat.m.toNat) ∧
      (s.lat.b.getLsbD l.p.val = false → lr = l.lr) ∧
      (∀ j, j ∈ todo ↔ j ∈ l.todo ∧ j ≠ l.p) ∧
      runTurn (.worker k) s =
        .next { s with
          lanes := s.lanes.set k
            { l with lr := lr, todo := todo, ph := if todo = [] then .ready else .run } }

/-- R131: COMBINE multiplies the worker's partial product into acc modulo lat.m in one step and makes the
worker COMBINED; no other state changes; a partial product 1 leaves a reduced acc unchanged. -/
def Obligations.CombineStep : Prop :=
  ∀ (s : State) (k : Nat) (l : Lane),
    s.lanes[k]? = some l → l.ph = .ready → s.eng = .exp → s.lat.m ≠ 0#64 →
    ∃ acc : Word,
      acc.toNat = s.acc.toNat * l.lr.toNat % s.lat.m.toNat ∧
      (l.lr = 1#64 → s.acc.toNat < s.lat.m.toNat → acc = s.acc) ∧
      runTurn (.worker k) s =
        .next { s with acc := acc, lanes := s.lanes.set k { l with ph := .combined } }

/-- R133: MODEXP completion, once every lane k < lat.W is COMBINED, writes RESULT, STATUS, eng and every
lane's phase in one step; and a turn of the controller completes the command only then. -/
def Obligations.ModexpCompletion : Prop :=
  ∀ s : State, s.eng = .exp →
    ((∀ k < s.lat.w.toNat, ∀ l, s.lanes[k]? = some l → l.ph = .combined) →
      runTurn .controller s =
        .next { s with
          result := s.acc
          status := { s.status with busy := false, done := true }
          eng := .idle
          lanes := s.lanes.map fun l => { l with ph := .off } }) ∧
    (∀ t, runTurn .controller s = .next t → t.eng = .idle →
      ∀ k < s.lat.w.toNat, ∀ l, s.lanes[k]? = some l → l.ph = .combined)

/-- R113: while a worker runs its indices, its step reads only its own lane, lat.b and lat.m and writes only
its own lane: two machines that agree on these give the worker the same next lane, and keep the rest. -/
def Obligations.WorkerStepsArePrivate : Prop :=
  ∀ (s u : State) (k : Nat) (l : Lane),
    s.lanes[k]? = some l → u.lanes[k]? = some l → l.ph = .run → u.lat.b = s.lat.b → u.lat.m = s.lat.m →
    s.lat.m ≠ 0#64 →
    ∃ l', runTurn (.worker k) s = .next { s with lanes := s.lanes.set k l' } ∧
      runTurn (.worker k) u = .next { u with lanes := u.lanes.set k l' }

/-- R134 (with R61, R96): the steps of two different workers, COMBINE among them, give the same state in
either order. -/
def Obligations.WorkerStepsCommute : Prop :=
  ∀ (s : State) (j k : Nat), j ≠ k → s.lat.m ≠ 0#64 →
    ∃ u v t, runTurn (.worker j) s = .next u ∧ runTurn (.worker k) u = .next t ∧
      runTurn (.worker k) s = .next v ∧ runTurn (.worker j) v = .next t

/-- R135: a collective reduction over any binary tree whose leaves are 1 mod m and the partial products,
each exactly once and in any order, gives the product of the partial products modulo m. -/
def Obligations.CollectiveReductionAgrees : Prop :=
  ∀ (m : Word) (lrs : List Word) (tree : ReduceTree), m ≠ 0#64 →
    tree.leaves.Perm ((1#64 % m) :: lrs) →
    ∃ v, tree.root m = some v ∧ v.toNat = (lrs.map BitVec.toNat).prod % m.toNat

/-- R112: whatever the order of the agents' steps and whatever the host does meanwhile, the step that ends a
MODEXP leaves in RESULT the reference value of the operands it was issued with, with DONE = 1. -/
def Obligations.ModexpGivesReferenceValue : Prop :=
  ∀ (ign : BitVec 60) (s t u v : State) (n : Nat),
    s.Inv → s.status.busy = false → s.modexpLegal → Turn.reset ∉ s.turns →
    exec (.modexp ign) s = .next t → InFlightFor n t → Sys2Proof.core.run n t = .next u →
    step u = .next v → v.eng = .idle →
    ∃ r, refModexp s.opa s.opb s.mod = some r ∧ r.toNat = s.opa.toNat ^ s.opb.toNat % s.mod.toNat ∧
      v.result = r ∧ v.status.done = true ∧ v.status.busy = false

/-- R90, R92, R93: the step that ends a MODMUL leaves in RESULT the exact product of the operands it was
issued with, modulo the modulus, with DONE = 1, whatever the host does meanwhile. -/
def Obligations.ModmulGivesProduct : Prop :=
  ∀ (ign : BitVec 60) (s t u v : State) (n : Nat),
    s.Inv → s.status.busy = false → s.mod ≠ 0#64 → Turn.reset ∉ s.turns →
    exec (.modmul ign) s = .next t → InFlightFor n t → Sys2Proof.core.run n t = .next u →
    step u = .next v → v.eng = .idle →
    v.result.toNat = s.opa.toNat * s.opb.toNat % s.mod.toNat ∧ v.status.done = true ∧ v.status.busy = false

/-- R134: RESULT does not depend on the worker count, the partition, the number of lanes, the schedule or
the host's other accesses: two machines given the same three operands end their MODEXP with equal RESULTs. -/
def Obligations.ResultIndependentOfWorkersAndOrder : Prop :=
  ∀ (g₁ g₂ : BitVec 60) (s₁ t₁ u₁ v₁ s₂ t₂ u₂ v₂ : State) (n₁ n₂ : Nat),
    s₁.opa = s₂.opa → s₁.opb = s₂.opb → s₁.mod = s₂.mod →
    (s₁.Inv ∧ s₁.status.busy = false ∧ s₁.modexpLegal ∧ Turn.reset ∉ s₁.turns ∧ exec (.modexp g₁) s₁ = .next t₁ ∧
      InFlightFor n₁ t₁ ∧ Sys2Proof.core.run n₁ t₁ = .next u₁ ∧ step u₁ = .next v₁ ∧ v₁.eng = .idle) →
    (s₂.Inv ∧ s₂.status.busy = false ∧ s₂.modexpLegal ∧ Turn.reset ∉ s₂.turns ∧ exec (.modexp g₂) s₂ = .next t₂ ∧
      InFlightFor n₂ t₂ ∧ Sys2Proof.core.run n₂ t₂ = .next u₂ ∧ step u₂ = .next v₂ ∧ v₂.eng = .idle) →
    v₁.result = v₂.result

/-- R23: the STATUS invariants, which every step preserves (with R32's link of BUSY to eng, and R151's
codes 5 to 15 never raised). -/
def Obligations.StatusInvariantKept : Prop :=
  ∀ s t : State, s.status.Ok → s.EngineOk → step s = .next t → t.status.Ok

/-- R22, R155: outside reset, each STATUS bit changes only in the steps R22 names: BUSY and DONE by
acceptance and completion, DONE also by CLEAR and an error, ERR and ERRCODE by an error (a new code too,
while ERR = 1, and each is logged) and by an accepted command, OVR by a CTRL write while busy and by CLEAR. -/
def Obligations.StatusBitsChangeOnlyWhereNamed : Prop :=
  ∀ s t : State, s.EngineOk → step s = .next t → ¬s.resetNext →
    let wrote (cmd : BitVec 4 → Prop) : Prop :=
      ∃ v, t.trace = s.trace ++ [.wrote .ctrl v] ∧ cmd (v.extractLsb' 0 4)
    (s.status.busy = false → t.status.busy = true → wrote fun c => c = 1 ∨ c = 2) ∧
    (s.status.busy = true → t.status.busy = false → s.eng ≠ .idle ∧ t.eng = .idle ∧ t.status.done = true) ∧
    (s.status.done = false → t.status.done = true → s.eng ≠ .idle ∧ t.eng = .idle ∧ t.status.busy = false) ∧
    (s.status.done = true → t.status.done = false → s.status.busy = false ∧ wrote fun _ => True) ∧
    (s.status.err = false → t.status.err = true → s.status.busy = false ∧ (wrote fun c => c ≠ 0) ∧
      ∃ c : ErrorCode, t.errlog = s.errlog ++ [c] ∧ t.status.errcode = c.code) ∧
    (s.status.err = true → t.status.err = false → s.status.busy = false ∧ wrote fun c => c.toNat ≤ 2) ∧
    (t.status.errcode ≠ s.status.errcode → s.status.busy = false ∧
      (t.status.errcode = 0 → wrote fun c => c.toNat ≤ 2) ∧
      (t.status.errcode ≠ 0 → (wrote fun c => c ≠ 0) ∧
        ∃ c : ErrorCode, t.errlog = s.errlog ++ [c] ∧ t.status.errcode = c.code)) ∧
    (s.status.ovr = false → t.status.ovr = true → s.status.busy = true ∧ wrote fun _ => True) ∧
    (s.status.ovr = true → t.status.ovr = false → s.status.busy = false ∧ wrote fun c => c = 0)

/-- R32: eng is not IDLE if and only if STATUS.BUSY = 1, after every step and at reset. -/
def Obligations.EngineBusyInvariantKept : Prop :=
  (∀ s t : State, s.EngineOk → step s = .next t → t.EngineOk) ∧ State.reset.eng = .idle ∧ State.reset.EngineOk

/-- R23, R31, R32, R33, R34, R110, R111, R112: the machine's invariant (`State.Inv`), kept by every step. -/
def Obligations.MachineInvariantKept : Prop :=
  ∀ s t : State, s.Inv → step s = .next t → t.Inv

/-- R180, R181: the machine's invariant holds right after reset, whatever W_MAX is. -/
def Obligations.MachineInvariantAtReset : Prop := State.reset.Inv

/-- R91: `modmul` has no value at m = 0, and no step of the block calls it there: a call would be the fault
of log 16. -/
def Obligations.NoStepMultipliesModuloZero : Prop :=
  (∀ a b : Word, modmul a b 0#64 = none) ∧ ∀ s : State, s.Inv → step s ≠ .fault .modmulZero

/-- R26: CAPS is constant: no step changes it, a write is ignored, and it reads W_MAX in bits [7:0]. -/
def Obligations.CapsIsConstant : Prop :=
  ∀ s t : State, step s = .next t →
    t.caps = s.caps ∧ (readRegister .caps t).toNat = s.caps.toNat ∧ ∀ v, writeRegister .caps v s = s

/-- R30: RESULT is written only by a completion step and by reset. -/
def Obligations.ResultWrittenOnlyByCompletion : Prop :=
  ∀ s t : State, step s = .next t →
    t.result = s.result ∨ s.resetNext ∨ (s.eng ≠ .idle ∧ t.eng = .idle ∧ t.status.done = true)

/-- R31: nothing but acceptance (and reset) writes the latches, and acceptance copies the host registers as
they are in that step. -/
def Obligations.LatchesWrittenOnlyByAcceptance : Prop :=
  ∀ s t : State, s.EngineOk → step s = .next t →
    t.lat = s.lat ∨ s.resetNext ∨
    (s.eng = .idle ∧ t.eng ≠ .idle ∧ t.lat.a = s.opa ∧ t.lat.b = s.opb ∧ t.lat.m = s.mod ∧
      (t.eng = .exp → t.lat.w = s.config.w ∧ t.lat.part = s.config.part))

/-- R132: while a MODEXP runs, a lane only moves forward (RUN, READY, COMBINED), only the READY to COMBINED
move writes acc, it multiplies that lane's partial product in, and no two lanes make it in one step. -/
def Obligations.ContributionsAreAppliedOnce : Prop :=
  ∀ s t : State, s.EngineOk → s.eng = .exp → step s = .next t → t.eng = .exp →
    (∀ (k : Nat) (l : Lane), s.lanes[k]? = some l → ∃ l' : Lane, t.lanes[k]? = some l' ∧
      (l'.ph = l.ph ∨ (l.ph = .run ∧ l'.ph = .ready) ∨
        (l.ph = .ready ∧ l'.ph = .combined ∧ modmul s.acc l.lr s.lat.m = some t.acc))) ∧
    (∀ (j k : Nat) (l l' : Lane), j ≠ k → s.lanes[j]? = some l → t.lanes[j]? = some l' → l.ph = .ready → l'.ph = .combined →
      t.lanes[k]? = s.lanes[k]?) ∧
    (t.acc = s.acc ∨ ∃ (k : Nat) (l l' : Lane), s.lanes[k]? = some l ∧ t.lanes[k]? = some l' ∧ l.ph = .ready ∧
      l'.ph = .combined)

/-- R36: the error history only grows, and only reset empties it. -/
def Obligations.ErrorHistoryOnlyGrows : Prop :=
  ∀ s t : State, step s = .next t →
    (s.resetNext ∧ t.errlog = [] ∧ t.ovrlog = 0) ∨
    (s.errlog <+: t.errlog ∧ t.errlog.length ≤ s.errlog.length + 1 ∧
      s.ovrlog ≤ t.ovrlog ∧ t.ovrlog ≤ s.ovrlog + 1)

/-- R162: from eng = IDLE only a CTRL write moves it. -/
def Obligations.OnlyACtrlWriteLeavesIdle : Prop :=
  ∀ s t : State, s.eng = .idle → step s = .next t → t.eng ≠ .idle →
    ∃ v, t.trace = s.trace ++ [.wrote .ctrl v]

/-- R114: every enabled step of a worker or of the controller takes exactly one of the steps the command has
left (`State.work`). -/
def Obligations.EveryInternalStepIsProgress : Prop :=
  ∀ s : State, s.Inv →
    (∀ k, workerEnabled s k = true → ∃ t, runTurn (.worker k) s = .next t ∧ t.work + 1 = s.work) ∧
    (controllerEnabled s = true → ∃ t, runTurn .controller s = .next t ∧ t.work + 1 = s.work)

/-- R114: a MODEXP with W workers completes after at most 63*W + 64 + W worker steps and one completion
step: that many are left after acceptance, at most. -/
def Obligations.AcceptedWorkIsBounded : Prop :=
  ∀ (ign : BitVec 60) (s t : State), s.Inv → s.status.busy = false → s.modexpLegal →
    exec (.modexp ign) s = .next t →
    t.work = ((List.range s.config.w.toNat).map fun k =>
      maxIndex (assignedSet t.lat k) + (assignedSet t.lat k).length + 1).sum + 1 ∧
    t.work ≤ 63 * s.config.w.toNat + 64 + s.config.w.toNat + 1

/-- R189: while a command is in flight, a worker or the controller has a step enabled. -/
def Obligations.NoDeadlockWhileBusy : Prop :=
  ∀ s : State, s.Inv → s.eng ≠ .idle →
    controllerEnabled s = true ∨ ∃ k < s.lat.w.toNat, workerEnabled s k = true

/-- R189: under turns that are fair (rounds that each give every worker and the controller a turn, in any
order, as many as the command has steps left), with no reset, the command in flight completes, whatever
script the host runs meanwhile (a `wait` loop, say), if no access of it is refused. -/
def Obligations.FairTurnsComplete : Prop :=
  ∀ (s : State) (rounds : List (List Turn)),
    s.Inv → s.eng ≠ .idle → s.AccessesAdmitted → s.turns = rounds.flatten →
    (∀ r ∈ rounds, Turn.reset ∉ r ∧ Turn.controller ∈ r ∧ ∀ k < s.caps.toNat, Turn.worker k ∈ r) →
    s.work ≤ rounds.length →
    ∃ n ≤ s.turns.length, ∃ t, Sys2Proof.core.run n s = .next t ∧ t.eng = .idle ∧ t.status.busy = false ∧
      t.status.done = true

/-- R142, R56: what each register reads as, and that a read changes no state but the bus history. -/
def Obligations.RegisterReads : Prop :=
  ∀ s : State,
    readRegister .ctrl s = 0 ∧
    (readRegister .status s).toNat =
      s.status.busy.toNat + 2 * s.status.done.toNat + 4 * s.status.err.toNat + 8 * s.status.ovr.toNat +
        16 * s.status.errcode.toNat ∧
    (readRegister .config s).toNat = s.config.w.toNat + 256 * s.config.part.toNat ∧
    (readRegister .caps s).toNat = s.caps.toNat ∧
    readRegister .opa s = s.opa ∧ readRegister .opb s = s.opb ∧ readRegister .mod s = s.mod ∧
    readRegister .result s = s.result ∧
    ∀ r x, busRead r x s = .next { s with trace := s.trace ++ [.read r (readRegister r s) x] }

/-- R143: what a write of each register does, at any time: nothing else of the state changes, but for the
bus history and for what the command of a CTRL write does. -/
def Obligations.RegisterWrites : Prop :=
  ∀ (s : State) (v : Word),
    let logged (r : Reg) : State := { s with trace := s.trace ++ [.wrote r v] }
    busWrite .ctrl v s = exec (decodeWord v) (logged .ctrl) ∧
    busWrite .status v s = .next (logged .status) ∧
    busWrite .caps v s = .next (logged .caps) ∧
    busWrite .result v s = .next (logged .result) ∧
    busWrite .config v s =
      .next { logged .config with config := { w := v.extractLsb' 0 8, part := v.extractLsb' 8 2 } } ∧
    busWrite .opa v s = .next { logged .opa with opa := v } ∧
    busWrite .opb v s = .next { logged .opb with opb := v } ∧
    busWrite .mod v s = .next { logged .mod with mod := v }

/-- R25: CONFIG stores bits [9:0] as written, illegal values too, and reads 0 above. -/
def Obligations.ConfigKeepsTenBits : Prop :=
  ∀ (s : State) (v : Word), readRegister .config (writeRegister .config v s) = v &&& 0x3FF

/-- R51, R52, R53, R55: at an offset of the window, an access that is not 64 bits wide is refused with
BusFault(WIDTH), a 64-bit access at no multiple of 8 with BusFault(MISALIGNED), and every 64-bit access at a
multiple of 8 reaches its register. -/
def Obligations.WindowAdmission : Prop :=
  ∀ (s : State) (off : Nat), off < 64 →
    (∀ width v, width ≠ .w64 →
      busAccess (.read off width) s = .fault (.bus .width) ∧
      busAccess (.write off width v) s = .fault (.bus .width)) ∧
    (∀ v, off % 8 ≠ 0 →
      busAccess (.read off .w64) s = .fault (.bus .misaligned) ∧
      busAccess (.write off .w64 v) s = .fault (.bus .misaligned)) ∧
    (∀ v, off % 8 = 0 → ∃ r : Reg, r.offset = off ∧
      busAccess (.read off .w64) s = busRead r (.reg r) s ∧ busAccess (.write off .w64 v) s = busWrite r v s)

/-- R53: an access that touches no byte of the window is not this block's and changes nothing of it. -/
def Obligations.AccessesElsewhereChangeNothing : Prop :=
  ∀ (s : State) (off : Int) (width : AccessWidth) (v : Word), 64 ≤ off ∨ off + width.bytes ≤ 0 →
    busAccess (.read off width) s = .next s ∧ busAccess (.write off width v) s = .next s

/-- R8, R52: BASE is 64-byte aligned, so an access is aligned in the window exactly when its bus address
is. -/
def Obligations.OffsetsAndAddressesAgree : Prop :=
  ∀ off addr : Int,
    offsetOfAddress (busAddress off) = off ∧ busAddress (offsetOfAddress addr) = addr ∧
    (busAddress off % 8 = 0 ↔ off % 8 = 0) ∧ busAddress 0 % 64 = 0

/-- R20, R181: what the registers read as right after reset; W_MAX is 1 to 255. -/
def Obligations.ResetRegisterValues : Prop :=
  readRegister .ctrl State.reset = 0 ∧ readRegister .status State.reset = 0 ∧
  readRegister .config State.reset = 1 ∧ readRegister .caps State.reset = Config.wMax.setWidth 64 ∧
  readRegister .opa State.reset = 0 ∧ readRegister .opb State.reset = 0 ∧ readRegister .mod State.reset = 0 ∧
  readRegister .result State.reset = 0 ∧ 1 ≤ Config.wMax.toNat ∧ Config.wMax.toNat ≤ 255

/-- R180: the reset input, at any time, is one step that puts the host registers at their reset values, eng at
IDLE and every lane at OFF, and empties the logs; a command in flight is abandoned. The host's own state,
the other turns and the draws stay (the model's choice, log 3). -/
def Obligations.ResetAtAnyTime : Prop :=
  ∀ (s : State) (rest : List Turn), s.turns = .reset :: rest →
    ∃ t, step s = .next t ∧
      (∀ r, r ≠ .caps → readRegister r t = readRegister r State.reset) ∧
      readRegister .caps t = readRegister .caps s ∧
      t.eng = .idle ∧ t.lanes.length = s.caps.toNat ∧ (∀ l ∈ t.lanes, l.ph = .off) ∧
      t.errlog = [] ∧ t.ovrlog = 0 ∧ t.work = 0 ∧
      t.script = s.script ∧ t.scriptPos = s.scriptPos ∧ t.trace = s.trace ∧ t.turns = rest ∧ t.draws = s.draws

/-- R181 (with R31, R33, R34, R35): state that reset leaves unspecified is never read before it is written.
Whatever values it holds instead of those of log 4 and log 5, the machine is the same where the spec defines
it, and two machines that agree there stay so step by step, read the same on the bus and stop alike. -/
def Obligations.UnspecifiedStateIsNeverRead : Prop :=
  (∀ (lat : Latches) (acc : Word) (lanes : List Lane),
    lanes.length = Config.wMax.toNat → (∀ l ∈ lanes, l.ph = .off) →
    let u : State := { State.reset with lat := lat, acc := acc, lanes := lanes }
    AgreeWhereDefined State.reset u) ∧
  (∀ s u : State, s.Inv → AgreeWhereDefined s u →
    (∀ r, readRegister r u = readRegister r s) ∧
    (∀ t, step s = .next t → ∃ t', step u = .next t' ∧ AgreeWhereDefined t t') ∧
    (∀ f, step s = .fault f → step u = .fault f))

/-- R76: one pass of the `wait` pseudo-instruction reads STATUS, changes nothing of the block, and goes back
to its label while BUSY = 1, on past the loop otherwise. (Where a later line declares the label again, log 26.) -/
def Obligations.WaitPollsUntilIdle : Prop :=
  ∀ (s : State) (before after : List ScriptLine) (fresh : Nat) (rest : List Turn),
    s.script = before ++ Pseudo.expand (.wait fresh) ++ after → ScriptLine.label fresh ∉ before →
    s.scriptPos = before.length → s.turns = .host :: .host :: .host :: rest →
    Sys2Proof.core.run 3 s =
      .next { s with
        scriptPos := if s.status.busy then before.length else before.length + 3
        trace := s.trace ++ [.read .status s.status.toWord ScriptName.s]
        turns := rest }

/-- R13: the free choice picks an enabled agent wherever there is one, and only there; no turn is lost to an
agent that has nothing to do. -/
def Obligations.FreeChoiceIsOfEnabledAgents : Prop :=
  ∀ s : State,
    (∀ a, drawTurn s = some a → a ∈ enabledTurns s) ∧
    (drawTurn s = none ↔
      controllerEnabled s = false ∧ hostEnabled s = false ∧ ∀ k, workerEnabled s k = false) ∧
    (s.turns = [] → drawTurn s = none → step s = .next s)

/-- R13: a turn of an agent that has no step enabled changes nothing (the model's convention, log 2). -/
def Obligations.DisabledTurnsChangeNothing : Prop :=
  ∀ (s : State),
    (∀ k, workerEnabled s k = false → runTurn (.worker k) s = .next s) ∧
    (controllerEnabled s = false → runTurn .controller s = .next s) ∧
    (hostEnabled s = false → runTurn .host s = .next s)

/-- R76, R77: the pseudo-instructions clear, modmul, modexp and config (its W and P constants, log 25) are one
line each, which writes the word R76 gives; the commands MODMUL and MODEXP expand into these lines; and two
transactions have the text R77 gives. -/
def Obligations.PseudoInstructionsExpand : Prop :=
  (∀ (s : State) (w : BitVec 8) (part : BitVec 2),
    (∃ line, Pseudo.expand .clear = [line] ∧ runLine line s = busWrite .ctrl 0x0 s) ∧
    (∃ line, Pseudo.expand .modmul = [line] ∧ runLine line s = busWrite .ctrl 0x1 s) ∧
    (∃ line, Pseudo.expand .modexp = [line] ∧ runLine line s = busWrite .ctrl 0x2 s) ∧
    (∃ line, ∃ v : Word, Pseudo.expand (.config w part) = [line] ∧ v.toNat = 256 * part.toNat + w.toNat ∧
      runLine line s = busWrite .config v s)) ∧
  (∀ (a b m : Expr) (fresh : Nat),
    Pseudo.expand (.modmulOf a b m fresh) =
      [.wr .opa a, .wr .opb b, .wr .mod m] ++ Pseudo.expand .modmul ++ Pseudo.expand (.wait fresh) ++
        [.rd .status, .rd .result] ∧
    Pseudo.expand (.modexpOf a b m fresh) =
      [.wr .opa a, .wr .opb b, .wr .mod m] ++ Pseudo.expand .modexp ++ Pseudo.expand (.wait fresh) ++
        [.rd .status, .rd .result]) ∧
  BusEvent.text (.wrote .ctrl 2) = "W 0x00 0x0000000000000002".toList ∧
  BusEvent.text (.read .result 0 (.reg .result)) = "R 0x38".toList

/-- R55, R75, R91, R150: the only stop of the machine is a refused access of the host's script; no command, no
step of the block and no other script line stops, whatever its operands (their unstated values are free:
log 24). -/
def Obligations.OnlyRefusedAccessesStop : Prop :=
  ∀ s : State, s.Inv →
    (∃ t, step s = .next t) ∨
    ∃ a kind, s.script[s.scriptPos]? = some (.access a) ∧ step s = .fault (.bus kind) ∧
      ∀ u : State, busAccess a u = .fault (.bus kind)
end

