-- ==== Sys2Proof/Laws/Arith.lean ====
section
/-! SUPPORT. The multiplier on natural numbers: the 128-bit product is exact and the result is reduced. -/

namespace Sys2Proof.Machine

theorem toNat_pos_of_ne_zero {m : Word} (h : m ≠ 0#64) : 0 < m.toNat := by
  rcases Nat.eq_zero_or_pos m.toNat with h0 | h0
  · exact absurd (BitVec.eq_of_toNat_eq (by simpa using h0)) h
  · exact h0

/-- R90: no bit of the product is lost, and the remainder fits. -/
theorem mulReduce_toNat {m : Word} (a b : Word) (h : m ≠ 0#64) :
    (mulReduce a b m).toNat = a.toNat * b.toNat % m.toNat := by
  have hm := toNat_pos_of_ne_zero h
  have ha := a.isLt
  have hb := b.isLt
  have hprod : a.toNat * b.toNat < 2 ^ 128 := by
    calc a.toNat * b.toNat < 2 ^ 64 * 2 ^ 64 := Nat.mul_lt_mul'' ha hb
      _ = 2 ^ 128 := by norm_num
  have hrem : a.toNat * b.toNat % m.toNat < 2 ^ 64 := (Nat.mod_lt _ hm).trans m.isLt
  simp only [mulReduce, BitVec.toNat_setWidth, BitVec.toNat_umod, BitVec.toNat_mul]
  rw [Nat.mod_eq_of_lt (ha.trans (by norm_num)), Nat.mod_eq_of_lt (hb.trans (by norm_num)),
    Nat.mod_eq_of_lt (m.isLt.trans (by norm_num)), Nat.mod_eq_of_lt hprod, Nat.mod_eq_of_lt hrem]

end Sys2Proof.Machine
end

