-- ==== Sys2Proof/Laws/State.lean ====
section
/-! SUPPORT. What each named update of State leaves in each field. -/

namespace Sys2Proof.Machine

@[simp] theorem State.setStatus_status (s : State) (v : Status) : (s.setStatus v).status = v := rfl
@[simp] theorem State.setStatus_config (s : State) (v : Status) : (s.setStatus v).config = s.config := rfl
@[simp] theorem State.setStatus_caps (s : State) (v : Status) : (s.setStatus v).caps = s.caps := rfl
@[simp] theorem State.setStatus_opa (s : State) (v : Status) : (s.setStatus v).opa = s.opa := rfl
@[simp] theorem State.setStatus_opb (s : State) (v : Status) : (s.setStatus v).opb = s.opb := rfl
@[simp] theorem State.setStatus_mod (s : State) (v : Status) : (s.setStatus v).mod = s.mod := rfl
@[simp] theorem State.setStatus_result (s : State) (v : Status) : (s.setStatus v).result = s.result := rfl
@[simp] theorem State.setStatus_lat (s : State) (v : Status) : (s.setStatus v).lat = s.lat := rfl
@[simp] theorem State.setStatus_eng (s : State) (v : Status) : (s.setStatus v).eng = s.eng := rfl
@[simp] theorem State.setStatus_lanes (s : State) (v : Status) : (s.setStatus v).lanes = s.lanes := rfl
@[simp] theorem State.setStatus_acc (s : State) (v : Status) : (s.setStatus v).acc = s.acc := rfl
@[simp] theorem State.setStatus_errlog (s : State) (v : Status) : (s.setStatus v).errlog = s.errlog := rfl
@[simp] theorem State.setStatus_ovrlog (s : State) (v : Status) : (s.setStatus v).ovrlog = s.ovrlog := rfl
@[simp] theorem State.setStatus_script (s : State) (v : Status) : (s.setStatus v).script = s.script := rfl
@[simp] theorem State.setStatus_scriptPos (s : State) (v : Status) : (s.setStatus v).scriptPos = s.scriptPos := rfl
@[simp] theorem State.setStatus_trace (s : State) (v : Status) : (s.setStatus v).trace = s.trace := rfl
@[simp] theorem State.setStatus_turns (s : State) (v : Status) : (s.setStatus v).turns = s.turns := rfl
@[simp] theorem State.setStatus_draws (s : State) (v : Status) : (s.setStatus v).draws = s.draws := rfl

@[simp] theorem State.setConfig_status (s : State) (v : ConfigReg) : (s.setConfig v).status = s.status := rfl
@[simp] theorem State.setConfig_config (s : State) (v : ConfigReg) : (s.setConfig v).config = v := rfl
@[simp] theorem State.setConfig_caps (s : State) (v : ConfigReg) : (s.setConfig v).caps = s.caps := rfl
@[simp] theorem State.setConfig_opa (s : State) (v : ConfigReg) : (s.setConfig v).opa = s.opa := rfl
@[simp] theorem State.setConfig_opb (s : State) (v : ConfigReg) : (s.setConfig v).opb = s.opb := rfl
@[simp] theorem State.setConfig_mod (s : State) (v : ConfigReg) : (s.setConfig v).mod = s.mod := rfl
@[simp] theorem State.setConfig_result (s : State) (v : ConfigReg) : (s.setConfig v).result = s.result := rfl
@[simp] theorem State.setConfig_lat (s : State) (v : ConfigReg) : (s.setConfig v).lat = s.lat := rfl
@[simp] theorem State.setConfig_eng (s : State) (v : ConfigReg) : (s.setConfig v).eng = s.eng := rfl
@[simp] theorem State.setConfig_lanes (s : State) (v : ConfigReg) : (s.setConfig v).lanes = s.lanes := rfl
@[simp] theorem State.setConfig_acc (s : State) (v : ConfigReg) : (s.setConfig v).acc = s.acc := rfl
@[simp] theorem State.setConfig_errlog (s : State) (v : ConfigReg) : (s.setConfig v).errlog = s.errlog := rfl
@[simp] theorem State.setConfig_ovrlog (s : State) (v : ConfigReg) : (s.setConfig v).ovrlog = s.ovrlog := rfl
@[simp] theorem State.setConfig_script (s : State) (v : ConfigReg) : (s.setConfig v).script = s.script := rfl
@[simp] theorem State.setConfig_scriptPos (s : State) (v : ConfigReg) : (s.setConfig v).scriptPos = s.scriptPos := rfl
@[simp] theorem State.setConfig_trace (s : State) (v : ConfigReg) : (s.setConfig v).trace = s.trace := rfl
@[simp] theorem State.setConfig_turns (s : State) (v : ConfigReg) : (s.setConfig v).turns = s.turns := rfl
@[simp] theorem State.setConfig_draws (s : State) (v : ConfigReg) : (s.setConfig v).draws = s.draws := rfl

@[simp] theorem State.setOpa_status (s : State) (v : Word) : (s.setOpa v).status = s.status := rfl
@[simp] theorem State.setOpa_config (s : State) (v : Word) : (s.setOpa v).config = s.config := rfl
@[simp] theorem State.setOpa_caps (s : State) (v : Word) : (s.setOpa v).caps = s.caps := rfl
@[simp] theorem State.setOpa_opa (s : State) (v : Word) : (s.setOpa v).opa = v := rfl
@[simp] theorem State.setOpa_opb (s : State) (v : Word) : (s.setOpa v).opb = s.opb := rfl
@[simp] theorem State.setOpa_mod (s : State) (v : Word) : (s.setOpa v).mod = s.mod := rfl
@[simp] theorem State.setOpa_result (s : State) (v : Word) : (s.setOpa v).result = s.result := rfl
@[simp] theorem State.setOpa_lat (s : State) (v : Word) : (s.setOpa v).lat = s.lat := rfl
@[simp] theorem State.setOpa_eng (s : State) (v : Word) : (s.setOpa v).eng = s.eng := rfl
@[simp] theorem State.setOpa_lanes (s : State) (v : Word) : (s.setOpa v).lanes = s.lanes := rfl
@[simp] theorem State.setOpa_acc (s : State) (v : Word) : (s.setOpa v).acc = s.acc := rfl
@[simp] theorem State.setOpa_errlog (s : State) (v : Word) : (s.setOpa v).errlog = s.errlog := rfl
@[simp] theorem State.setOpa_ovrlog (s : State) (v : Word) : (s.setOpa v).ovrlog = s.ovrlog := rfl
@[simp] theorem State.setOpa_script (s : State) (v : Word) : (s.setOpa v).script = s.script := rfl
@[simp] theorem State.setOpa_scriptPos (s : State) (v : Word) : (s.setOpa v).scriptPos = s.scriptPos := rfl
@[simp] theorem State.setOpa_trace (s : State) (v : Word) : (s.setOpa v).trace = s.trace := rfl
@[simp] theorem State.setOpa_turns (s : State) (v : Word) : (s.setOpa v).turns = s.turns := rfl
@[simp] theorem State.setOpa_draws (s : State) (v : Word) : (s.setOpa v).draws = s.draws := rfl

@[simp] theorem State.setOpb_status (s : State) (v : Word) : (s.setOpb v).status = s.status := rfl
@[simp] theorem State.setOpb_config (s : State) (v : Word) : (s.setOpb v).config = s.config := rfl
@[simp] theorem State.setOpb_caps (s : State) (v : Word) : (s.setOpb v).caps = s.caps := rfl
@[simp] theorem State.setOpb_opa (s : State) (v : Word) : (s.setOpb v).opa = s.opa := rfl
@[simp] theorem State.setOpb_opb (s : State) (v : Word) : (s.setOpb v).opb = v := rfl
@[simp] theorem State.setOpb_mod (s : State) (v : Word) : (s.setOpb v).mod = s.mod := rfl
@[simp] theorem State.setOpb_result (s : State) (v : Word) : (s.setOpb v).result = s.result := rfl
@[simp] theorem State.setOpb_lat (s : State) (v : Word) : (s.setOpb v).lat = s.lat := rfl
@[simp] theorem State.setOpb_eng (s : State) (v : Word) : (s.setOpb v).eng = s.eng := rfl
@[simp] theorem State.setOpb_lanes (s : State) (v : Word) : (s.setOpb v).lanes = s.lanes := rfl
@[simp] theorem State.setOpb_acc (s : State) (v : Word) : (s.setOpb v).acc = s.acc := rfl
@[simp] theorem State.setOpb_errlog (s : State) (v : Word) : (s.setOpb v).errlog = s.errlog := rfl
@[simp] theorem State.setOpb_ovrlog (s : State) (v : Word) : (s.setOpb v).ovrlog = s.ovrlog := rfl
@[simp] theorem State.setOpb_script (s : State) (v : Word) : (s.setOpb v).script = s.script := rfl
@[simp] theorem State.setOpb_scriptPos (s : State) (v : Word) : (s.setOpb v).scriptPos = s.scriptPos := rfl
@[simp] theorem State.setOpb_trace (s : State) (v : Word) : (s.setOpb v).trace = s.trace := rfl
@[simp] theorem State.setOpb_turns (s : State) (v : Word) : (s.setOpb v).turns = s.turns := rfl
@[simp] theorem State.setOpb_draws (s : State) (v : Word) : (s.setOpb v).draws = s.draws := rfl

@[simp] theorem State.setMod_status (s : State) (v : Word) : (s.setMod v).status = s.status := rfl
@[simp] theorem State.setMod_config (s : State) (v : Word) : (s.setMod v).config = s.config := rfl
@[simp] theorem State.setMod_caps (s : State) (v : Word) : (s.setMod v).caps = s.caps := rfl
@[simp] theorem State.setMod_opa (s : State) (v : Word) : (s.setMod v).opa = s.opa := rfl
@[simp] theorem State.setMod_opb (s : State) (v : Word) : (s.setMod v).opb = s.opb := rfl
@[simp] theorem State.setMod_mod (s : State) (v : Word) : (s.setMod v).mod = v := rfl
@[simp] theorem State.setMod_result (s : State) (v : Word) : (s.setMod v).result = s.result := rfl
@[simp] theorem State.setMod_lat (s : State) (v : Word) : (s.setMod v).lat = s.lat := rfl
@[simp] theorem State.setMod_eng (s : State) (v : Word) : (s.setMod v).eng = s.eng := rfl
@[simp] theorem State.setMod_lanes (s : State) (v : Word) : (s.setMod v).lanes = s.lanes := rfl
@[simp] theorem State.setMod_acc (s : State) (v : Word) : (s.setMod v).acc = s.acc := rfl
@[simp] theorem State.setMod_errlog (s : State) (v : Word) : (s.setMod v).errlog = s.errlog := rfl
@[simp] theorem State.setMod_ovrlog (s : State) (v : Word) : (s.setMod v).ovrlog = s.ovrlog := rfl
@[simp] theorem State.setMod_script (s : State) (v : Word) : (s.setMod v).script = s.script := rfl
@[simp] theorem State.setMod_scriptPos (s : State) (v : Word) : (s.setMod v).scriptPos = s.scriptPos := rfl
@[simp] theorem State.setMod_trace (s : State) (v : Word) : (s.setMod v).trace = s.trace := rfl
@[simp] theorem State.setMod_turns (s : State) (v : Word) : (s.setMod v).turns = s.turns := rfl
@[simp] theorem State.setMod_draws (s : State) (v : Word) : (s.setMod v).draws = s.draws := rfl

@[simp] theorem State.setResult_status (s : State) (v : Word) : (s.setResult v).status = s.status := rfl
@[simp] theorem State.setResult_config (s : State) (v : Word) : (s.setResult v).config = s.config := rfl
@[simp] theorem State.setResult_caps (s : State) (v : Word) : (s.setResult v).caps = s.caps := rfl
@[simp] theorem State.setResult_opa (s : State) (v : Word) : (s.setResult v).opa = s.opa := rfl
@[simp] theorem State.setResult_opb (s : State) (v : Word) : (s.setResult v).opb = s.opb := rfl
@[simp] theorem State.setResult_mod (s : State) (v : Word) : (s.setResult v).mod = s.mod := rfl
@[simp] theorem State.setResult_result (s : State) (v : Word) : (s.setResult v).result = v := rfl
@[simp] theorem State.setResult_lat (s : State) (v : Word) : (s.setResult v).lat = s.lat := rfl
@[simp] theorem State.setResult_eng (s : State) (v : Word) : (s.setResult v).eng = s.eng := rfl
@[simp] theorem State.setResult_lanes (s : State) (v : Word) : (s.setResult v).lanes = s.lanes := rfl
@[simp] theorem State.setResult_acc (s : State) (v : Word) : (s.setResult v).acc = s.acc := rfl
@[simp] theorem State.setResult_errlog (s : State) (v : Word) : (s.setResult v).errlog = s.errlog := rfl
@[simp] theorem State.setResult_ovrlog (s : State) (v : Word) : (s.setResult v).ovrlog = s.ovrlog := rfl
@[simp] theorem State.setResult_script (s : State) (v : Word) : (s.setResult v).script = s.script := rfl
@[simp] theorem State.setResult_scriptPos (s : State) (v : Word) : (s.setResult v).scriptPos = s.scriptPos := rfl
@[simp] theorem State.setResult_trace (s : State) (v : Word) : (s.setResult v).trace = s.trace := rfl
@[simp] theorem State.setResult_turns (s : State) (v : Word) : (s.setResult v).turns = s.turns := rfl
@[simp] theorem State.setResult_draws (s : State) (v : Word) : (s.setResult v).draws = s.draws := rfl

@[simp] theorem State.setLat_status (s : State) (v : Latches) : (s.setLat v).status = s.status := rfl
@[simp] theorem State.setLat_config (s : State) (v : Latches) : (s.setLat v).config = s.config := rfl
@[simp] theorem State.setLat_caps (s : State) (v : Latches) : (s.setLat v).caps = s.caps := rfl
@[simp] theorem State.setLat_opa (s : State) (v : Latches) : (s.setLat v).opa = s.opa := rfl
@[simp] theorem State.setLat_opb (s : State) (v : Latches) : (s.setLat v).opb = s.opb := rfl
@[simp] theorem State.setLat_mod (s : State) (v : Latches) : (s.setLat v).mod = s.mod := rfl
@[simp] theorem State.setLat_result (s : State) (v : Latches) : (s.setLat v).result = s.result := rfl
@[simp] theorem State.setLat_lat (s : State) (v : Latches) : (s.setLat v).lat = v := rfl
@[simp] theorem State.setLat_eng (s : State) (v : Latches) : (s.setLat v).eng = s.eng := rfl
@[simp] theorem State.setLat_lanes (s : State) (v : Latches) : (s.setLat v).lanes = s.lanes := rfl
@[simp] theorem State.setLat_acc (s : State) (v : Latches) : (s.setLat v).acc = s.acc := rfl
@[simp] theorem State.setLat_errlog (s : State) (v : Latches) : (s.setLat v).errlog = s.errlog := rfl
@[simp] theorem State.setLat_ovrlog (s : State) (v : Latches) : (s.setLat v).ovrlog = s.ovrlog := rfl
@[simp] theorem State.setLat_script (s : State) (v : Latches) : (s.setLat v).script = s.script := rfl
@[simp] theorem State.setLat_scriptPos (s : State) (v : Latches) : (s.setLat v).scriptPos = s.scriptPos := rfl
@[simp] theorem State.setLat_trace (s : State) (v : Latches) : (s.setLat v).trace = s.trace := rfl
@[simp] theorem State.setLat_turns (s : State) (v : Latches) : (s.setLat v).turns = s.turns := rfl
@[simp] theorem State.setLat_draws (s : State) (v : Latches) : (s.setLat v).draws = s.draws := rfl

@[simp] theorem State.setEng_status (s : State) (v : Eng) : (s.setEng v).status = s.status := rfl
@[simp] theorem State.setEng_config (s : State) (v : Eng) : (s.setEng v).config = s.config := rfl
@[simp] theorem State.setEng_caps (s : State) (v : Eng) : (s.setEng v).caps = s.caps := rfl
@[simp] theorem State.setEng_opa (s : State) (v : Eng) : (s.setEng v).opa = s.opa := rfl
@[simp] theorem State.setEng_opb (s : State) (v : Eng) : (s.setEng v).opb = s.opb := rfl
@[simp] theorem State.setEng_mod (s : State) (v : Eng) : (s.setEng v).mod = s.mod := rfl
@[simp] theorem State.setEng_result (s : State) (v : Eng) : (s.setEng v).result = s.result := rfl
@[simp] theorem State.setEng_lat (s : State) (v : Eng) : (s.setEng v).lat = s.lat := rfl
@[simp] theorem State.setEng_eng (s : State) (v : Eng) : (s.setEng v).eng = v := rfl
@[simp] theorem State.setEng_lanes (s : State) (v : Eng) : (s.setEng v).lanes = s.lanes := rfl
@[simp] theorem State.setEng_acc (s : State) (v : Eng) : (s.setEng v).acc = s.acc := rfl
@[simp] theorem State.setEng_errlog (s : State) (v : Eng) : (s.setEng v).errlog = s.errlog := rfl
@[simp] theorem State.setEng_ovrlog (s : State) (v : Eng) : (s.setEng v).ovrlog = s.ovrlog := rfl
@[simp] theorem State.setEng_script (s : State) (v : Eng) : (s.setEng v).script = s.script := rfl
@[simp] theorem State.setEng_scriptPos (s : State) (v : Eng) : (s.setEng v).scriptPos = s.scriptPos := rfl
@[simp] theorem State.setEng_trace (s : State) (v : Eng) : (s.setEng v).trace = s.trace := rfl
@[simp] theorem State.setEng_turns (s : State) (v : Eng) : (s.setEng v).turns = s.turns := rfl
@[simp] theorem State.setEng_draws (s : State) (v : Eng) : (s.setEng v).draws = s.draws := rfl

@[simp] theorem State.setLanes_status (s : State) (v : List Lane) : (s.setLanes v).status = s.status := rfl
@[simp] theorem State.setLanes_config (s : State) (v : List Lane) : (s.setLanes v).config = s.config := rfl
@[simp] theorem State.setLanes_caps (s : State) (v : List Lane) : (s.setLanes v).caps = s.caps := rfl
@[simp] theorem State.setLanes_opa (s : State) (v : List Lane) : (s.setLanes v).opa = s.opa := rfl
@[simp] theorem State.setLanes_opb (s : State) (v : List Lane) : (s.setLanes v).opb = s.opb := rfl
@[simp] theorem State.setLanes_mod (s : State) (v : List Lane) : (s.setLanes v).mod = s.mod := rfl
@[simp] theorem State.setLanes_result (s : State) (v : List Lane) : (s.setLanes v).result = s.result := rfl
@[simp] theorem State.setLanes_lat (s : State) (v : List Lane) : (s.setLanes v).lat = s.lat := rfl
@[simp] theorem State.setLanes_eng (s : State) (v : List Lane) : (s.setLanes v).eng = s.eng := rfl
@[simp] theorem State.setLanes_lanes (s : State) (v : List Lane) : (s.setLanes v).lanes = v := rfl
@[simp] theorem State.setLanes_acc (s : State) (v : List Lane) : (s.setLanes v).acc = s.acc := rfl
@[simp] theorem State.setLanes_errlog (s : State) (v : List Lane) : (s.setLanes v).errlog = s.errlog := rfl
@[simp] theorem State.setLanes_ovrlog (s : State) (v : List Lane) : (s.setLanes v).ovrlog = s.ovrlog := rfl
@[simp] theorem State.setLanes_script (s : State) (v : List Lane) : (s.setLanes v).script = s.script := rfl
@[simp] theorem State.setLanes_scriptPos (s : State) (v : List Lane) : (s.setLanes v).scriptPos = s.scriptPos := rfl
@[simp] theorem State.setLanes_trace (s : State) (v : List Lane) : (s.setLanes v).trace = s.trace := rfl
@[simp] theorem State.setLanes_turns (s : State) (v : List Lane) : (s.setLanes v).turns = s.turns := rfl
@[simp] theorem State.setLanes_draws (s : State) (v : List Lane) : (s.setLanes v).draws = s.draws := rfl

@[simp] theorem State.setAcc_status (s : State) (v : Word) : (s.setAcc v).status = s.status := rfl
@[simp] theorem State.setAcc_config (s : State) (v : Word) : (s.setAcc v).config = s.config := rfl
@[simp] theorem State.setAcc_caps (s : State) (v : Word) : (s.setAcc v).caps = s.caps := rfl
@[simp] theorem State.setAcc_opa (s : State) (v : Word) : (s.setAcc v).opa = s.opa := rfl
@[simp] theorem State.setAcc_opb (s : State) (v : Word) : (s.setAcc v).opb = s.opb := rfl
@[simp] theorem State.setAcc_mod (s : State) (v : Word) : (s.setAcc v).mod = s.mod := rfl
@[simp] theorem State.setAcc_result (s : State) (v : Word) : (s.setAcc v).result = s.result := rfl
@[simp] theorem State.setAcc_lat (s : State) (v : Word) : (s.setAcc v).lat = s.lat := rfl
@[simp] theorem State.setAcc_eng (s : State) (v : Word) : (s.setAcc v).eng = s.eng := rfl
@[simp] theorem State.setAcc_lanes (s : State) (v : Word) : (s.setAcc v).lanes = s.lanes := rfl
@[simp] theorem State.setAcc_acc (s : State) (v : Word) : (s.setAcc v).acc = v := rfl
@[simp] theorem State.setAcc_errlog (s : State) (v : Word) : (s.setAcc v).errlog = s.errlog := rfl
@[simp] theorem State.setAcc_ovrlog (s : State) (v : Word) : (s.setAcc v).ovrlog = s.ovrlog := rfl
@[simp] theorem State.setAcc_script (s : State) (v : Word) : (s.setAcc v).script = s.script := rfl
@[simp] theorem State.setAcc_scriptPos (s : State) (v : Word) : (s.setAcc v).scriptPos = s.scriptPos := rfl
@[simp] theorem State.setAcc_trace (s : State) (v : Word) : (s.setAcc v).trace = s.trace := rfl
@[simp] theorem State.setAcc_turns (s : State) (v : Word) : (s.setAcc v).turns = s.turns := rfl
@[simp] theorem State.setAcc_draws (s : State) (v : Word) : (s.setAcc v).draws = s.draws := rfl

@[simp] theorem State.setErrlog_status (s : State) (v : List ErrorCode) : (s.setErrlog v).status = s.status := rfl
@[simp] theorem State.setErrlog_config (s : State) (v : List ErrorCode) : (s.setErrlog v).config = s.config := rfl
@[simp] theorem State.setErrlog_caps (s : State) (v : List ErrorCode) : (s.setErrlog v).caps = s.caps := rfl
@[simp] theorem State.setErrlog_opa (s : State) (v : List ErrorCode) : (s.setErrlog v).opa = s.opa := rfl
@[simp] theorem State.setErrlog_opb (s : State) (v : List ErrorCode) : (s.setErrlog v).opb = s.opb := rfl
@[simp] theorem State.setErrlog_mod (s : State) (v : List ErrorCode) : (s.setErrlog v).mod = s.mod := rfl
@[simp] theorem State.setErrlog_result (s : State) (v : List ErrorCode) : (s.setErrlog v).result = s.result := rfl
@[simp] theorem State.setErrlog_lat (s : State) (v : List ErrorCode) : (s.setErrlog v).lat = s.lat := rfl
@[simp] theorem State.setErrlog_eng (s : State) (v : List ErrorCode) : (s.setErrlog v).eng = s.eng := rfl
@[simp] theorem State.setErrlog_lanes (s : State) (v : List ErrorCode) : (s.setErrlog v).lanes = s.lanes := rfl
@[simp] theorem State.setErrlog_acc (s : State) (v : List ErrorCode) : (s.setErrlog v).acc = s.acc := rfl
@[simp] theorem State.setErrlog_errlog (s : State) (v : List ErrorCode) : (s.setErrlog v).errlog = v := rfl
@[simp] theorem State.setErrlog_ovrlog (s : State) (v : List ErrorCode) : (s.setErrlog v).ovrlog = s.ovrlog := rfl
@[simp] theorem State.setErrlog_script (s : State) (v : List ErrorCode) : (s.setErrlog v).script = s.script := rfl
@[simp] theorem State.setErrlog_scriptPos (s : State) (v : List ErrorCode) : (s.setErrlog v).scriptPos = s.scriptPos := rfl
@[simp] theorem State.setErrlog_trace (s : State) (v : List ErrorCode) : (s.setErrlog v).trace = s.trace := rfl
@[simp] theorem State.setErrlog_turns (s : State) (v : List ErrorCode) : (s.setErrlog v).turns = s.turns := rfl
@[simp] theorem State.setErrlog_draws (s : State) (v : List ErrorCode) : (s.setErrlog v).draws = s.draws := rfl

@[simp] theorem State.setOvrlog_status (s : State) (v : Nat) : (s.setOvrlog v).status = s.status := rfl
@[simp] theorem State.setOvrlog_config (s : State) (v : Nat) : (s.setOvrlog v).config = s.config := rfl
@[simp] theorem State.setOvrlog_caps (s : State) (v : Nat) : (s.setOvrlog v).caps = s.caps := rfl
@[simp] theorem State.setOvrlog_opa (s : State) (v : Nat) : (s.setOvrlog v).opa = s.opa := rfl
@[simp] theorem State.setOvrlog_opb (s : State) (v : Nat) : (s.setOvrlog v).opb = s.opb := rfl
@[simp] theorem State.setOvrlog_mod (s : State) (v : Nat) : (s.setOvrlog v).mod = s.mod := rfl
@[simp] theorem State.setOvrlog_result (s : State) (v : Nat) : (s.setOvrlog v).result = s.result := rfl
@[simp] theorem State.setOvrlog_lat (s : State) (v : Nat) : (s.setOvrlog v).lat = s.lat := rfl
@[simp] theorem State.setOvrlog_eng (s : State) (v : Nat) : (s.setOvrlog v).eng = s.eng := rfl
@[simp] theorem State.setOvrlog_lanes (s : State) (v : Nat) : (s.setOvrlog v).lanes = s.lanes := rfl
@[simp] theorem State.setOvrlog_acc (s : State) (v : Nat) : (s.setOvrlog v).acc = s.acc := rfl
@[simp] theorem State.setOvrlog_errlog (s : State) (v : Nat) : (s.setOvrlog v).errlog = s.errlog := rfl
@[simp] theorem State.setOvrlog_ovrlog (s : State) (v : Nat) : (s.setOvrlog v).ovrlog = v := rfl
@[simp] theorem State.setOvrlog_script (s : State) (v : Nat) : (s.setOvrlog v).script = s.script := rfl
@[simp] theorem State.setOvrlog_scriptPos (s : State) (v : Nat) : (s.setOvrlog v).scriptPos = s.scriptPos := rfl
@[simp] theorem State.setOvrlog_trace (s : State) (v : Nat) : (s.setOvrlog v).trace = s.trace := rfl
@[simp] theorem State.setOvrlog_turns (s : State) (v : Nat) : (s.setOvrlog v).turns = s.turns := rfl
@[simp] theorem State.setOvrlog_draws (s : State) (v : Nat) : (s.setOvrlog v).draws = s.draws := rfl

@[simp] theorem State.setScriptPos_status (s : State) (v : Nat) : (s.setScriptPos v).status = s.status := rfl
@[simp] theorem State.setScriptPos_config (s : State) (v : Nat) : (s.setScriptPos v).config = s.config := rfl
@[simp] theorem State.setScriptPos_caps (s : State) (v : Nat) : (s.setScriptPos v).caps = s.caps := rfl
@[simp] theorem State.setScriptPos_opa (s : State) (v : Nat) : (s.setScriptPos v).opa = s.opa := rfl
@[simp] theorem State.setScriptPos_opb (s : State) (v : Nat) : (s.setScriptPos v).opb = s.opb := rfl
@[simp] theorem State.setScriptPos_mod (s : State) (v : Nat) : (s.setScriptPos v).mod = s.mod := rfl
@[simp] theorem State.setScriptPos_result (s : State) (v : Nat) : (s.setScriptPos v).result = s.result := rfl
@[simp] theorem State.setScriptPos_lat (s : State) (v : Nat) : (s.setScriptPos v).lat = s.lat := rfl
@[simp] theorem State.setScriptPos_eng (s : State) (v : Nat) : (s.setScriptPos v).eng = s.eng := rfl
@[simp] theorem State.setScriptPos_lanes (s : State) (v : Nat) : (s.setScriptPos v).lanes = s.lanes := rfl
@[simp] theorem State.setScriptPos_acc (s : State) (v : Nat) : (s.setScriptPos v).acc = s.acc := rfl
@[simp] theorem State.setScriptPos_errlog (s : State) (v : Nat) : (s.setScriptPos v).errlog = s.errlog := rfl
@[simp] theorem State.setScriptPos_ovrlog (s : State) (v : Nat) : (s.setScriptPos v).ovrlog = s.ovrlog := rfl
@[simp] theorem State.setScriptPos_script (s : State) (v : Nat) : (s.setScriptPos v).script = s.script := rfl
@[simp] theorem State.setScriptPos_scriptPos (s : State) (v : Nat) : (s.setScriptPos v).scriptPos = v := rfl
@[simp] theorem State.setScriptPos_trace (s : State) (v : Nat) : (s.setScriptPos v).trace = s.trace := rfl
@[simp] theorem State.setScriptPos_turns (s : State) (v : Nat) : (s.setScriptPos v).turns = s.turns := rfl
@[simp] theorem State.setScriptPos_draws (s : State) (v : Nat) : (s.setScriptPos v).draws = s.draws := rfl

@[simp] theorem State.setTrace_status (s : State) (v : List BusEvent) : (s.setTrace v).status = s.status := rfl
@[simp] theorem State.setTrace_config (s : State) (v : List BusEvent) : (s.setTrace v).config = s.config := rfl
@[simp] theorem State.setTrace_caps (s : State) (v : List BusEvent) : (s.setTrace v).caps = s.caps := rfl
@[simp] theorem State.setTrace_opa (s : State) (v : List BusEvent) : (s.setTrace v).opa = s.opa := rfl
@[simp] theorem State.setTrace_opb (s : State) (v : List BusEvent) : (s.setTrace v).opb = s.opb := rfl
@[simp] theorem State.setTrace_mod (s : State) (v : List BusEvent) : (s.setTrace v).mod = s.mod := rfl
@[simp] theorem State.setTrace_result (s : State) (v : List BusEvent) : (s.setTrace v).result = s.result := rfl
@[simp] theorem State.setTrace_lat (s : State) (v : List BusEvent) : (s.setTrace v).lat = s.lat := rfl
@[simp] theorem State.setTrace_eng (s : State) (v : List BusEvent) : (s.setTrace v).eng = s.eng := rfl
@[simp] theorem State.setTrace_lanes (s : State) (v : List BusEvent) : (s.setTrace v).lanes = s.lanes := rfl
@[simp] theorem State.setTrace_acc (s : State) (v : List BusEvent) : (s.setTrace v).acc = s.acc := rfl
@[simp] theorem State.setTrace_errlog (s : State) (v : List BusEvent) : (s.setTrace v).errlog = s.errlog := rfl
@[simp] theorem State.setTrace_ovrlog (s : State) (v : List BusEvent) : (s.setTrace v).ovrlog = s.ovrlog := rfl
@[simp] theorem State.setTrace_script (s : State) (v : List BusEvent) : (s.setTrace v).script = s.script := rfl
@[simp] theorem State.setTrace_scriptPos (s : State) (v : List BusEvent) : (s.setTrace v).scriptPos = s.scriptPos := rfl
@[simp] theorem State.setTrace_trace (s : State) (v : List BusEvent) : (s.setTrace v).trace = v := rfl
@[simp] theorem State.setTrace_turns (s : State) (v : List BusEvent) : (s.setTrace v).turns = s.turns := rfl
@[simp] theorem State.setTrace_draws (s : State) (v : List BusEvent) : (s.setTrace v).draws = s.draws := rfl

@[simp] theorem State.setTurns_status (s : State) (v : List Turn) : (s.setTurns v).status = s.status := rfl
@[simp] theorem State.setTurns_config (s : State) (v : List Turn) : (s.setTurns v).config = s.config := rfl
@[simp] theorem State.setTurns_caps (s : State) (v : List Turn) : (s.setTurns v).caps = s.caps := rfl
@[simp] theorem State.setTurns_opa (s : State) (v : List Turn) : (s.setTurns v).opa = s.opa := rfl
@[simp] theorem State.setTurns_opb (s : State) (v : List Turn) : (s.setTurns v).opb = s.opb := rfl
@[simp] theorem State.setTurns_mod (s : State) (v : List Turn) : (s.setTurns v).mod = s.mod := rfl
@[simp] theorem State.setTurns_result (s : State) (v : List Turn) : (s.setTurns v).result = s.result := rfl
@[simp] theorem State.setTurns_lat (s : State) (v : List Turn) : (s.setTurns v).lat = s.lat := rfl
@[simp] theorem State.setTurns_eng (s : State) (v : List Turn) : (s.setTurns v).eng = s.eng := rfl
@[simp] theorem State.setTurns_lanes (s : State) (v : List Turn) : (s.setTurns v).lanes = s.lanes := rfl
@[simp] theorem State.setTurns_acc (s : State) (v : List Turn) : (s.setTurns v).acc = s.acc := rfl
@[simp] theorem State.setTurns_errlog (s : State) (v : List Turn) : (s.setTurns v).errlog = s.errlog := rfl
@[simp] theorem State.setTurns_ovrlog (s : State) (v : List Turn) : (s.setTurns v).ovrlog = s.ovrlog := rfl
@[simp] theorem State.setTurns_script (s : State) (v : List Turn) : (s.setTurns v).script = s.script := rfl
@[simp] theorem State.setTurns_scriptPos (s : State) (v : List Turn) : (s.setTurns v).scriptPos = s.scriptPos := rfl
@[simp] theorem State.setTurns_trace (s : State) (v : List Turn) : (s.setTurns v).trace = s.trace := rfl
@[simp] theorem State.setTurns_turns (s : State) (v : List Turn) : (s.setTurns v).turns = v := rfl
@[simp] theorem State.setTurns_draws (s : State) (v : List Turn) : (s.setTurns v).draws = s.draws := rfl

@[simp] theorem State.setDraws_status (s : State) (v : Nat) : (s.setDraws v).status = s.status := rfl
@[simp] theorem State.setDraws_config (s : State) (v : Nat) : (s.setDraws v).config = s.config := rfl
@[simp] theorem State.setDraws_caps (s : State) (v : Nat) : (s.setDraws v).caps = s.caps := rfl
@[simp] theorem State.setDraws_opa (s : State) (v : Nat) : (s.setDraws v).opa = s.opa := rfl
@[simp] theorem State.setDraws_opb (s : State) (v : Nat) : (s.setDraws v).opb = s.opb := rfl
@[simp] theorem State.setDraws_mod (s : State) (v : Nat) : (s.setDraws v).mod = s.mod := rfl
@[simp] theorem State.setDraws_result (s : State) (v : Nat) : (s.setDraws v).result = s.result := rfl
@[simp] theorem State.setDraws_lat (s : State) (v : Nat) : (s.setDraws v).lat = s.lat := rfl
@[simp] theorem State.setDraws_eng (s : State) (v : Nat) : (s.setDraws v).eng = s.eng := rfl
@[simp] theorem State.setDraws_lanes (s : State) (v : Nat) : (s.setDraws v).lanes = s.lanes := rfl
@[simp] theorem State.setDraws_acc (s : State) (v : Nat) : (s.setDraws v).acc = s.acc := rfl
@[simp] theorem State.setDraws_errlog (s : State) (v : Nat) : (s.setDraws v).errlog = s.errlog := rfl
@[simp] theorem State.setDraws_ovrlog (s : State) (v : Nat) : (s.setDraws v).ovrlog = s.ovrlog := rfl
@[simp] theorem State.setDraws_script (s : State) (v : Nat) : (s.setDraws v).script = s.script := rfl
@[simp] theorem State.setDraws_scriptPos (s : State) (v : Nat) : (s.setDraws v).scriptPos = s.scriptPos := rfl
@[simp] theorem State.setDraws_trace (s : State) (v : Nat) : (s.setDraws v).trace = s.trace := rfl
@[simp] theorem State.setDraws_turns (s : State) (v : Nat) : (s.setDraws v).turns = s.turns := rfl
@[simp] theorem State.setDraws_draws (s : State) (v : Nat) : (s.setDraws v).draws = v := rfl

end Sys2Proof.Machine
end

