-- ==== Sys2Proof/Laws/Ops.lean ====
section
/-! SUPPORT. One lemma per shared operation: everything it can do. -/

namespace Sys2Proof.Machine

theorem issue_eq (f : State → State) (s : State) :
    issue f s = .next (if s.status.busy then overrun s else f s) := by
  unfold issue; split <;> rfl

theorem issue_busy {s : State} (f : State → State) (h : s.status.busy = true) :
    issue f s = .next (overrun s) := by simp [issue, h]

theorem issue_idle {s : State} (f : State → State) (h : s.status.busy = false) :
    issue f s = .next (f s) := by simp [issue, h]

/-- Every command answers a next state, one of these five. -/
theorem exec_cases (i : Instr) (s : State) :
    (s.status.busy = true ∧ exec i s = .next (overrun s)) ∨
    (s.status.busy = false ∧ exec i s = .next (doClear s)) ∨
    (s.status.busy = false ∧ ∃ c, exec i s = .next (raiseError c s)) ∨
    (s.status.busy = false ∧ s.mod ≠ 0#64 ∧ exec i s = .next (startModmul s)) ∨
    (s.status.busy = false ∧ s.mod ≠ 0#64 ∧ s.config.w ≠ 0#8 ∧ ¬(s.caps < s.config.w) ∧ s.config.part ≠ 3#2 ∧
      exec i s = .next (startModexp s)) := by
  cases hb : s.status.busy with
  | true => exact .inl ⟨rfl, by cases i <;> exact issue_busy _ hb⟩
  | false =>
    refine .inr ?_
    cases i with
    | clear => exact .inl ⟨rfl, issue_idle _ hb⟩
    | modmul =>
      by_cases hm : s.mod = 0#64
      · exact .inr (.inl ⟨rfl, .zeroModulus, by simp [exec, execModmul, issue_idle _ hb, acceptModmul, hm]⟩)
      · exact .inr (.inr (.inl ⟨rfl, hm, by simp [exec, execModmul, issue_idle _ hb, acceptModmul, hm]⟩))
    | modexp =>
      by_cases hm : s.mod = 0#64
      · exact .inr (.inl ⟨rfl, .zeroModulus, by simp [exec, execModexp, issue_idle _ hb, acceptModexp, hm]⟩)
      by_cases hw : s.config.w = 0#8
      · exact .inr (.inl ⟨rfl, .zeroWorkers, by simp [exec, execModexp, issue_idle _ hb, acceptModexp, hm, hw]⟩)
      by_cases hc : s.caps < s.config.w ∨ s.config.part = 3#2
      · exact .inr (.inl ⟨rfl, .badConfig, by simp [exec, execModexp, issue_idle _ hb, acceptModexp, hm, hw, hc]⟩)
      · have hc' := not_or.mp hc
        exact .inr (.inr (.inr ⟨rfl, hm, hw, hc'.1, hc'.2,
          by simp [exec, execModexp, issue_idle _ hb, acceptModexp, hm, hw, hc]⟩))
    | _ => exact .inr (.inl ⟨rfl, .illegalCmd, issue_idle _ hb⟩)

theorem touchesWindow_iff (off : Int) (width : AccessWidth) :
    touchesWindow off width = true ↔ off < 64 ∧ 0 < off + width.bytes := by
  simp only [touchesWindow, Bool.and_eq_true, decide_eq_true_eq]

/-- What the block makes of an access: elsewhere, refused or admitted. -/
theorem admission_cases (off : Int) (width : AccessWidth) :
    (¬touchesWindow off width = true ∧ admission off width = .elsewhere) ∨
    (touchesWindow off width = true ∧ width ≠ .w64 ∧ admission off width = .refused .width) ∨
    (touchesWindow off width = true ∧ width = .w64 ∧ registerAt off = none ∧
      admission off width = .refused .misaligned) ∨
    (∃ r, touchesWindow off width = true ∧ width = .w64 ∧ registerAt off = some r ∧
      admission off width = .admitted r) := by
  by_cases ht : touchesWindow off width = true
  · by_cases hw : width = .w64
    · cases hr : registerAt off with
      | none => exact .inr (.inr (.inl ⟨ht, hw, rfl, by rw [admission, if_pos ht, if_pos hw, hr]⟩))
      | some r => exact .inr (.inr (.inr ⟨r, ht, hw, rfl, by rw [admission, if_pos ht, if_pos hw, hr]⟩))
    · exact .inr (.inl ⟨ht, hw, by rw [admission, if_pos ht, if_neg hw]⟩)
  · exact .inl ⟨ht, by rw [admission, if_neg ht]⟩

/-- Every command answers a next state. -/
theorem exec_next (i : Instr) (s : State) : ∃ t, exec i s = .next t := by
  obtain ⟨_, e⟩ | ⟨_, e⟩ | ⟨_, _, e⟩ | ⟨_, _, e⟩ | ⟨_, _, _, _, _, e⟩ := exec_cases i s <;> exact ⟨_, e⟩

/-- Every admitted write answers a next state. -/
theorem busWrite_next (r : Reg) (v : Word) (s : State) : ∃ t, busWrite r v s = .next t := by
  cases r
  case ctrl => exact exec_next _ _
  all_goals exact ⟨_, rfl⟩

/-- An access answers a next state in every state, or is refused in every state. -/
theorem busAccess_next_or_refused (a : BusAccess) :
    (∀ s, ∃ t, busAccess a s = .next t) ∨ ∃ kind, ∀ s, busAccess a s = .fault (.bus kind) := by
  cases a with
  | read off width =>
    cases h : admission off width with
    | elsewhere => exact .inl fun s => ⟨s, by simp only [busAccess, h]⟩
    | refused kind => exact .inr ⟨kind, fun s => by simp only [busAccess, h]⟩
    | admitted r => exact .inl fun s => ⟨_, by simp only [busAccess, h, busRead]; rfl⟩
  | write off width v =>
    cases h : admission off width with
    | elsewhere => exact .inl fun s => ⟨s, by simp only [busAccess, h]⟩
    | refused kind => exact .inr ⟨kind, fun s => by simp only [busAccess, h]⟩
    | admitted r =>
      refine .inl fun s => ?_
      obtain ⟨t, ht⟩ := busWrite_next r v s
      exact ⟨t, by simp only [busAccess, h]; exact ht⟩

theorem modmul_zero (a b : Word) : modmul a b 0#64 = none := by simp [modmul]

theorem modmul_some {a b m r : Word} (h : modmul a b m = some r) : m ≠ 0#64 ∧ r = mulReduce a b m := by
  unfold modmul at h
  split at h
  · cases h
  · rename_i hm; exact ⟨hm, (Option.some.inj h).symm⟩

theorem squareStep_next {k : Nat} {l : Lane} {s t : State} (h : squareStep k l s = .next t) :
    ∃ lb, modmul l.lb l.lb s.lat.m = some lb ∧ t = s.setLanes (s.lanes.set k (l.squared lb)) := by
  unfold squareStep at h
  split at h
  · cases h
  · rename_i lb hlb; exact ⟨lb, hlb, by cases h; rfl⟩

theorem absorbStep_next {k : Nat} {l : Lane} {s t : State} (h : absorbStep k l s = .next t) :
    ∃ lr, t = s.setLanes (s.lanes.set k (l.absorbed lr)) ∧
      (bitOf s.lat.b l.p = true → modmul l.lr l.lb s.lat.m = some lr) ∧
      (bitOf s.lat.b l.p = false → lr = l.lr) := by
  unfold absorbStep at h
  split at h
  · rename_i hb
    split at h
    · cases h
    · rename_i lr hlr; exact ⟨lr, by cases h; rfl, fun _ => hlr, fun h' => by simp [hb] at h'⟩
  · rename_i hb
    exact ⟨l.lr, by cases h; rfl, fun h' => absurd h' hb, fun _ => rfl⟩

theorem combineStep_next {k : Nat} {l : Lane} {s t : State} (h : combineStep k l s = .next t) :
    ∃ acc, modmul s.acc l.lr s.lat.m = some acc ∧
      t = (s.setAcc acc).setLanes (s.lanes.set k l.joined) := by
  unfold combineStep at h
  split at h
  · cases h
  · rename_i acc hacc; exact ⟨acc, hacc, by cases h; rfl⟩

theorem completeModmul_next {s t : State} (h : completeModmul s = .next t) :
    ∃ r, modmul s.lat.a s.lat.b s.lat.m = some r ∧
      t = ((s.setResult r).setStatus s.status.completed).setEng .idle := by
  unfold completeModmul at h
  split at h
  · cases h
  · rename_i r hr; exact ⟨r, hr, by cases h; rfl⟩

theorem laneAction_square {e : Eng} {l : Lane} (h : laneAction e l = some .square) :
    l.ph = .run ∧ ∃ i, minIndex l.todo = some i ∧ l.p < i := by
  unfold laneAction at h
  cases hp : l.ph <;> simp only [hp] at h
  case run =>
    cases hm : minIndex l.todo <;> simp only [hm] at h
    · cases h
    · rename_i i
      by_cases hlt : l.p < i
      · exact ⟨rfl, i, rfl, hlt⟩
      · simp only [hlt, if_false] at h; split at h <;> cases h
  case ready => split at h <;> cases h
  all_goals cases h

theorem laneAction_absorb {e : Eng} {l : Lane} (h : laneAction e l = some .absorb) :
    l.ph = .run ∧ minIndex l.todo = some l.p := by
  unfold laneAction at h
  cases hp : l.ph <;> simp only [hp] at h
  case run =>
    cases hm : minIndex l.todo <;> simp only [hm] at h
    · cases h
    · rename_i i
      by_cases hlt : l.p < i
      · simp only [hlt, if_true] at h; cases h
      · simp only [hlt, if_false] at h
        split at h
        · rename_i he; exact ⟨rfl, by rw [he]⟩
        · cases h
  case ready => split at h <;> cases h
  all_goals cases h

theorem laneAction_combine {e : Eng} {l : Lane} (h : laneAction e l = some .combine) :
    l.ph = .ready ∧ e = .exp := by
  unfold laneAction at h
  cases hp : l.ph <;> simp only [hp] at h
  case run =>
    split at h
    · split at h
      · cases h
      · split at h <;> cases h
    · cases h
  case ready =>
    split at h
    · rename_i he; exact ⟨rfl, he⟩
    · cases h
  all_goals cases h

end Sys2Proof.Machine
end

