-- ==== Sys2Proof/Laws/HostAgent.lean ====
section
/-! SUPPORT. The host agent: what its script lines do, stated over any expression and any label, so that no
proof evaluates one. -/

namespace Sys2Proof.Machine

theorem wordValue_natCast {n : Nat} (h : n < 2 ^ 64) (sofar : Nat) : wordValue sofar n = BitVec.ofNat 64 n := by
  have hx : (0 : Int) ≤ n ∧ (n : Int) < 2 ^ 64 := ⟨by omega, by exact_mod_cast h⟩
  simp only [wordValue, if_pos hx, Int.toNat_natCast]

/-- A `wr` line whose expression has a 64-bit value writes it. -/
theorem writtenValue_of_eval {bound : List BusEvent} {e : Expr} {n : Nat} (h : e.eval bound = n) (hn : n < 2 ^ 64) :
    writtenValue bound e = BitVec.ofNat 64 n := by
  simp only [writtenValue, h, wordValue_natCast hn]

theorem writtenValue_num {n : Nat} (h : n < 2 ^ 64) (bound : List BusEvent) :
    writtenValue bound (.num n) = BitVec.ofNat 64 n := writtenValue_of_eval rfl h

/-- A name has the value last read under it. -/
theorem nameValue_of_bound {bound : List BusEvent} {x : ScriptName} {v : Word} (h : boundValue bound x = some v) :
    nameValue bound x = v.toNat := by
  simp only [nameValue, h]

/-- What a host branch does: it only moves the host. -/
theorem runLine_ifGoto (c : Cond) (l : Nat) (s : State) :
    runLine (.ifGoto c l) s =
      .next (if c.eval s.trace then s.setScriptPos (branchTarget s.trace.length l s.script) else s) := by
  simp only [runLine]
  split <;> rfl

theorem branchTarget_of_position {l pos : Nat} {script : List ScriptLine} (h : labelPosition l script = some pos)
    (sofar : Nat) : branchTarget sofar l script = pos := by
  simp only [branchTarget, h]

theorem hostStep_line {s : State} {line : ScriptLine} (h : s.script[s.scriptPos]? = some line) :
    hostStep s = runLine line (s.setScriptPos (s.scriptPos + 1)) := by
  simp only [hostStep, h]

/-- The value last read under a name is the one it is bound to. -/
theorem boundValue_append_read (bound : List BusEvent) (r : Reg) (v : Word) (x : ScriptName) :
    boundValue (bound ++ [.read r v x]) x = some v := by
  induction bound with
  | nil => simp [boundValue]
  | cons e rest ih => simp only [List.cons_append, boundValue, ih]

end Sys2Proof.Machine
end

