-- ==== Sys2Proof/Laws/Partition.lean ====
section
/-! SUPPORT. The least index of a set and the ends of the contiguous blocks. -/

namespace Sys2Proof.Machine

theorem minIndex_eq_none {l : List BitIndex} : minIndex l = none ↔ l = [] := by
  cases l with
  | nil => simp [minIndex]
  | cons i rest =>
    simp only [minIndex, reduceCtorEq, iff_false]
    split
    · simp
    · split <;> simp

/-- What `minIndex` answers is the least element. -/
theorem minIndex_least {l : List BitIndex} {i : BitIndex} (h : minIndex l = some i) :
    i ∈ l ∧ ∀ j ∈ l, i ≤ j := by
  induction l generalizing i with
  | nil => simp [minIndex] at h
  | cons x rest ih =>
    simp only [minIndex] at h
    split at h
    · rename_i hn
      obtain rfl := minIndex_eq_none.mp hn
      cases h
      simp
    · rename_i j hj
      obtain ⟨hm, hle⟩ := ih hj
      split at h <;> rename_i hlt <;> cases h
      · refine ⟨by simp, fun y hy => ?_⟩
        rcases List.mem_cons.mp hy with rfl | hy
        · exact le_refl _
        · exact (le_of_lt hlt).trans (hle y hy)
      · refine ⟨by simp [hm], fun y hy => ?_⟩
        rcases List.mem_cons.mp hy with rfl | hy
        · exact not_lt.mp hlt
        · exact hle y hy

/-- Each block starts where the one before it ends. -/
theorem contigStart_succ (w k : Nat) : contigStart w (k + 1) = contigStart w k + contigLength w k := by
  simp only [contigStart, contigLength]
  split <;> split <;> try omega
  · ring
  · have : k + 1 = 64 % w := by omega
    rw [← this]
    simp
    ring
  · have : k + 1 - 64 % w = (k - 64 % w) + 1 := by omega
    rw [this]
    ring

theorem contigStart_zero (w : Nat) : contigStart w 0 = 0 := by
  simp only [contigStart]
  split
  · simp
  · have : 64 % w = 0 := by omega
    simp [this]

/-- The last block ends at 64. -/
theorem contigStart_end {w : Nat} (hw : 1 ≤ w) : contigStart w w = 64 := by
  simp only [contigStart]
  have h1 := Nat.mod_lt 64 hw
  rw [if_neg (by omega)]
  have h2 := Nat.div_add_mod 64 w
  obtain ⟨d, hd⟩ : ∃ d, w = 64 % w + d := ⟨w - 64 % w, by omega⟩
  have : w - 64 % w = d := by omega
  rw [this]
  generalize 64 % w = r at *
  generalize 64 / w = q at *
  subst hd
  nlinarith

theorem contigStart_mono (w : Nat) {a b : Nat} (h : a ≤ b) : contigStart w a ≤ contigStart w b := by
  induction h with
  | refl => exact le_refl _
  | step h ih => rw [Nat.succ_eq_add_one, contigStart_succ]; omega

/-- The subset that a draw of PARTITION_ANY gives a worker (R103). -/
theorem partitionAny_getD {draw w k : Nat} (h : k < w) :
    (partitionAny draw w).getD k [] =
      allIndices.filter fun i => decide (Config.partitionOwner draw w i % w = k) := by
  simp [partitionAny, List.getD, h]

end Sys2Proof.Machine
end

