-- ==== Sys2Proof/Laws/PerInstr.lean ====
section
/-! SUPPORT. Per instruction: the fields of an encoded command stand where 30_encoding.md R70 puts them. -/

namespace Sys2Proof.Laws

theorem fields_of_append (g : BitVec 60) (c : BitVec 4) :
    (g ++ c).extractLsb' 0 4 = c ∧ (g ++ c).extractLsb' 4 60 = g := by
  have bit (j : Nat) : (g ++ c).getLsbD j = if j < 4 then c.getLsbD j else g.getLsbD (j - 4) := by
    rw [BitVec.getLsbD_append]
  constructor <;> ext j hj <;> simp only [BitVec.getElem_extractLsb', bit]
  · rw [if_pos (by omega)]; simp [hj]
  · rw [if_neg (by omega)]; simp [hj]

end Sys2Proof.Laws

namespace Sys2Proof.Laws.CommandField

/-- R70: CMD is bits [3:0] and IGN bits [63:4] of the command word. -/
def Statement (i : Instr) : Prop :=
  (encode i).extractLsb' 0 4 = i.code ∧ (encode i).extractLsb' 4 60 = i.ignored

theorem clear (ign : BitVec 60) : Statement (.clear ign) := fields_of_append _ _
theorem modmul (ign : BitVec 60) : Statement (.modmul ign) := fields_of_append _ _
theorem modexp (ign : BitVec 60) : Statement (.modexp ign) := fields_of_append _ _
theorem reserved3 (ign : BitVec 60) : Statement (.reserved3 ign) := fields_of_append _ _
theorem reserved4 (ign : BitVec 60) : Statement (.reserved4 ign) := fields_of_append _ _
theorem reserved5 (ign : BitVec 60) : Statement (.reserved5 ign) := fields_of_append _ _
theorem reserved6 (ign : BitVec 60) : Statement (.reserved6 ign) := fields_of_append _ _
theorem reserved7 (ign : BitVec 60) : Statement (.reserved7 ign) := fields_of_append _ _
theorem reserved8 (ign : BitVec 60) : Statement (.reserved8 ign) := fields_of_append _ _
theorem reserved9 (ign : BitVec 60) : Statement (.reserved9 ign) := fields_of_append _ _
theorem reservedA (ign : BitVec 60) : Statement (.reservedA ign) := fields_of_append _ _
theorem reservedB (ign : BitVec 60) : Statement (.reservedB ign) := fields_of_append _ _
theorem reservedC (ign : BitVec 60) : Statement (.reservedC ign) := fields_of_append _ _
theorem reservedD (ign : BitVec 60) : Statement (.reservedD ign) := fields_of_append _ _
theorem reservedE (ign : BitVec 60) : Statement (.reservedE ign) := fields_of_append _ _
theorem reservedF (ign : BitVec 60) : Statement (.reservedF ign) := fields_of_append _ _

end Sys2Proof.Laws.CommandField
end

