-- ==== Sys2Proof/Laws/Step.lean ====
section
/-! SUPPORT. Once and for all, what a turn and a step can do. -/

namespace Sys2Proof.Machine

/-- Only the host's own position and bus history differ. -/
structure HostOnly (s t : State) : Prop where
  block : SameBlock s t
  script : t.script = s.script
  turns : t.turns = s.turns
  draws : t.draws = s.draws

theorem SameBlock.refl (s : State) : SameBlock s s := ⟨rfl, rfl, rfl, rfl, rfl, rfl, rfl, rfl, rfl, rfl, rfl, rfl, rfl⟩

theorem HostOnly.refl (s : State) : HostOnly s s := ⟨SameBlock.refl s, rfl, rfl, rfl⟩

theorem HostOnly.setScriptPos (s : State) (n : Nat) : HostOnly s (s.setScriptPos n) :=
  ⟨⟨rfl, rfl, rfl, rfl, rfl, rfl, rfl, rfl, rfl, rfl, rfl, rfl, rfl⟩, rfl, rfl, rfl⟩

theorem HostOnly.setTrace (s : State) (l : List BusEvent) : HostOnly s (s.setTrace l) :=
  ⟨⟨rfl, rfl, rfl, rfl, rfl, rfl, rfl, rfl, rfl, rfl, rfl, rfl, rfl⟩, rfl, rfl, rfl⟩

theorem SameBlock.trans {s t u : State} (h : SameBlock s t) (k : SameBlock t u) : SameBlock s u :=
  ⟨k.status.trans h.status, k.config.trans h.config, k.caps.trans h.caps, k.opa.trans h.opa, k.opb.trans h.opb,
    k.mod.trans h.mod, k.result.trans h.result, k.lat.trans h.lat, k.eng.trans h.eng, k.lanes.trans h.lanes,
    k.acc.trans h.acc, k.errlog.trans h.errlog, k.ovrlog.trans h.ovrlog⟩

theorem HostOnly.trans {s t u : State} (h : HostOnly s t) (k : HostOnly t u) : HostOnly s u :=
  ⟨h.block.trans k.block, k.script.trans h.script, k.turns.trans h.turns, k.draws.trans h.draws⟩

/-- What a turn of an agent that answers a next state did. -/
inductive Move (s : State) : State → Prop
  | hostOnly {t : State} (h : HostOnly s t) : Move s t
  | write {u : State} (r : Reg) (v : Word) (hr : r ≠ .ctrl) (h : HostOnly s u) : Move s (writeRegister r v u)
  | command {u t : State} (v : Word) (h : HostOnly s u) (ht : u.trace = s.trace ++ [.wrote .ctrl v])
      (hx : exec (decodeWord v) u = .next t) : Move s t
  | mulDone {r : Word} (he : s.eng = .mul) (hr : modmul s.lat.a s.lat.b s.lat.m = some r) :
      Move s (((s.setResult r).setStatus s.status.completed).setEng .idle)
  | expDone (he : s.eng = .exp) (hc : allCombined s = true) : Move s (completeModexp s)
  | square {k : Nat} {l : Lane} {lb : Word} (hl : s.lanes[k]? = some l) (ha : laneAction s.eng l = some .square)
      (hm : modmul l.lb l.lb s.lat.m = some lb) : Move s (s.setLanes (s.lanes.set k (l.squared lb)))
  | absorb {k : Nat} {l : Lane} {lr : Word} (hl : s.lanes[k]? = some l) (ha : laneAction s.eng l = some .absorb)
      (hset : bitOf s.lat.b l.p = true → modmul l.lr l.lb s.lat.m = some lr)
      (hclear : bitOf s.lat.b l.p = false → lr = l.lr) : Move s (s.setLanes (s.lanes.set k (l.absorbed lr)))
  | combine {k : Nat} {l : Lane} {acc : Word} (hl : s.lanes[k]? = some l)
      (ha : laneAction s.eng l = some .combine) (hm : modmul s.acc l.lr s.lat.m = some acc) :
      Move s ((s.setAcc acc).setLanes (s.lanes.set k l.joined))

theorem busRead_move {r : Reg} {x : ScriptName} {s u t : State} (h : busRead r x u = .next t) (hu : HostOnly s u) :
    Move s t := by
  cases h; exact .hostOnly (hu.trans (.setTrace _ _))

theorem busWrite_move {r : Reg} {v : Word} {s u t : State} (h : busWrite r v u = .next t) (hu : HostOnly s u)
    (htr : u.trace = s.trace) : Move s t := by
  have hl : HostOnly s (u.setTrace (u.trace ++ [.wrote r v])) := hu.trans (.setTrace _ _)
  cases r <;> simp only [busWrite] at h
  case ctrl => exact .command v hl (by simp [htr]) h
  all_goals cases h; exact .write _ v (by decide) hl

theorem busAccess_move {a : BusAccess} {s u t : State} (h : busAccess a u = .next t) (hu : HostOnly s u)
    (htr : u.trace = s.trace) : Move s t := by
  cases a <;> simp only [busAccess] at h <;> split at h
  · cases h; exact .hostOnly hu
  · cases h
  · exact busRead_move h hu
  · cases h; exact .hostOnly hu
  · cases h
  · exact busWrite_move h hu htr

theorem runLine_move {line : ScriptLine} {s u t : State} (h : runLine line u = .next t) (hu : HostOnly s u)
    (htr : u.trace = s.trace) : Move s t := by
  cases line with
  | wr r e => exact busWrite_move h hu htr
  | rd r => exact busRead_move h hu
  | rdAs r x => exact busRead_move h hu
  | label l => cases h; exact .hostOnly hu
  | ifGoto c l =>
    simp only [runLine] at h
    split at h
    · cases h; exact .hostOnly (hu.trans (.setScriptPos _ _))
    · cases h; exact .hostOnly hu
  | comment => cases h; exact .hostOnly hu
  | access a => exact busAccess_move h hu htr

theorem hostStep_move {s t : State} (h : hostStep s = .next t) : Move s t := by
  unfold hostStep at h
  split at h
  · exact runLine_move h (.setScriptPos _ _) rfl
  · cases h; exact .hostOnly (.refl _)

theorem controllerStep_move {s t : State} (h : controllerStep s = .next t) : Move s t := by
  unfold controllerStep at h
  cases he : s.eng <;> simp only [he] at h
  · cases h; exact .hostOnly (.refl _)
  · obtain ⟨r, hr, rfl⟩ := completeModmul_next h
    exact .mulDone he hr
  · split at h
    · rename_i hc; cases h; exact .expDone he hc
    · cases h; exact .hostOnly (.refl _)

theorem workerStep_move {k : Nat} {s t : State} (h : workerStep k s = .next t) : Move s t := by
  unfold workerStep at h
  split at h
  · cases h; exact .hostOnly (.refl _)
  · rename_i l hl
    split at h <;> rename_i ha
    · obtain ⟨lb, hlb, rfl⟩ := squareStep_next h; exact .square hl ha hlb
    · obtain ⟨lr, rfl, hset, hclear⟩ := absorbStep_next h; exact .absorb hl ha hset hclear
    · obtain ⟨acc, hacc, rfl⟩ := combineStep_next h; exact .combine hl ha hacc
    · cases h; exact .hostOnly (.refl _)

/-- Everything a turn can do: the reset input resets, an agent makes a move. -/
theorem runTurn_cases {a : Turn} {s t : State} (h : runTurn a s = .next t) :
    (a = .reset ∧ t = applyReset s) ∨ (a ≠ .reset ∧ Move s t) := by
  cases a with
  | host => exact .inr ⟨by decide, hostStep_move h⟩
  | controller => exact .inr ⟨by decide, controllerStep_move h⟩
  | worker k => exact .inr ⟨by simp, workerStep_move h⟩
  | reset => cases h; exact .inl ⟨rfl, rfl⟩

theorem step_eq_of_turns {s : State} {a : Turn} {rest : List Turn} (h : s.turns = a :: rest) :
    step s = runTurn a (s.setTurns rest) := by
  unfold step; rw [h]

/-- What the choice of the next turn leaves of the state: all of it but the turns and the draws. -/
structure Chosen (s u : State) : Prop where
  block : SameBlock s u
  script : u.script = s.script
  scriptPos : u.scriptPos = s.scriptPos
  trace : u.trace = s.trace
  turns : u.turns = s.turns.tail

theorem Chosen.setTurns {s : State} {a : Turn} {rest : List Turn} (hs : s.turns = a :: rest) :
    Chosen s (s.setTurns rest) :=
  ⟨⟨rfl, rfl, rfl, rfl, rfl, rfl, rfl, rfl, rfl, rfl, rfl, rfl, rfl⟩, rfl, rfl, rfl, by simp [hs]⟩

theorem Chosen.setDraws {s : State} (n : Nat) (hs : s.turns = []) : Chosen s (s.setDraws n) :=
  ⟨⟨rfl, rfl, rfl, rfl, rfl, rfl, rfl, rfl, rfl, rfl, rfl, rfl, rfl⟩, rfl, rfl, rfl, by simp [hs]⟩

/-- The reset input is no agent, so the free schedule never picks it. -/
theorem reset_not_enabled (s : State) : Turn.reset ∉ enabledTurns s := by
  simp only [enabledTurns, List.mem_append, List.mem_map, not_or, not_exists, not_and]
  refine ⟨⟨by split <;> simp, by simp⟩, by split <;> simp⟩

/-- A turn the free schedule picks is no reset. -/
theorem drawTurn_ne_reset {s : State} {a : Turn} (h : drawTurn s = some a) : a ≠ .reset := by
  rintro rfl
  apply reset_not_enabled s
  unfold drawTurn at h
  split at h
  · cases h
  · rename_i x hx; cases h; simp [hx]
  · rename_i x y z hx
    have hlt : Config.schedule s.draws % (y.length + 1) < (x :: y).length := by
      simpa using Nat.mod_lt _ (Nat.succ_pos _)
    rw [hx, ← Option.some.inj h, List.getD_eq_getElem _ _ hlt]
    exact List.getElem_mem hlt

/-- Everything a step can do: wait, take the reset input, or make one move of one agent. -/
theorem step_cases {s t : State} (h : step s = .next t) :
    t = s ∨ (s.resetNext ∧ t = applyReset (s.setTurns s.turns.tail)) ∨ ∃ u, Chosen s u ∧ Move u t := by
  unfold step at h
  split at h
  · rename_i a rest hs
    obtain ⟨rfl, rfl⟩ | ⟨-, hm⟩ := runTurn_cases h
    · exact .inr (.inl ⟨by simp [State.resetNext, hs], by simp [hs]⟩)
    · exact .inr (.inr ⟨_, .setTurns hs, hm⟩)
  · rename_i hs
    split at h
    · rename_i a ha
      obtain ⟨rfl, -⟩ | ⟨-, hm⟩ := runTurn_cases h
      · exact absurd rfl (drawTurn_ne_reset ha)
      · exact .inr (.inr ⟨_, .setDraws _ hs, hm⟩)
    · cases h; exact .inl rfl

/-! Runs of the machine, one step at a time. -/

theorem run_zero (s : State) : Sys2Proof.core.run 0 s = .next s := rfl

theorem run_succ {s t : State} (n : Nat) (h : step s = .next t) :
    Sys2Proof.core.run (n + 1) s = Sys2Proof.core.run n t := by
  have h' : Sys2Proof.core.step s = .next t := h
  simp only [Host.Core.run, h']

/-- A run that goes on has made its first step. -/
theorem run_succ_next {s u : State} {n : Nat} (h : Sys2Proof.core.run (n + 1) s = .next u) :
    ∃ t, step s = .next t ∧ Sys2Proof.core.run n t = .next u := by
  cases hs : step s with
  | next t => exact ⟨t, rfl, (run_succ n hs).symm.trans h⟩
  | fault r =>
    have h' : Sys2Proof.core.step s = .fault r := hs
    simp only [Host.Core.run, h'] at h
    cases h
  | refused r =>
    have h' : Sys2Proof.core.step s = .refused r := hs
    simp only [Host.Core.run, h'] at h
    cases h

end Sys2Proof.Machine
end

