-- ==== Sys2Proof/Tests/Slice0.lean ====
section
/-! SUPPORT. The model's own tests (each expected value is the spec's: its vectors of 95_test_vectors.md or an
example of the rule named), the well-formedness smoke tests, and a witness for the hypotheses of every
obligation that has some. -/

open Sys2Proof Sys2Proof.Machine

namespace Sys2Proof.Tests

/-! Small states. -/

/-- An idle block with the given number of lanes. -/
def fitted (n : Nat) : State :=
  { State.reset with caps := BitVec.ofNat 8 n, lanes := List.replicate n Lane.atReset }

/-- An idle block of 8 lanes with operands, modulus and CONFIG written. -/
def loaded (a b m : Word) (w : BitVec 8) (part : BitVec 2) : State :=
  { fitted 8 with opa := a, opb := b, mod := m, config := { w := w, part := part } }

/-- A block of 8 lanes whose STATUS has the given bits. -/
def withStatus (busy done err ovr : Bool) (code : BitVec 4) : State :=
  { fitted 8 with status := { busy := busy, done := done, err := err, ovr := ovr, errcode := code } }

/-- The STATUS of a block in which a command runs. -/
def busyStatus : Status := { busy := true, done := false, err := false, ovr := false, errcode := 0 }

/-- A block of 8 lanes that runs a MODMUL. -/
def multiplying (a b m : Word) : State :=
  { fitted 8 with
    status := busyStatus, eng := .mul
    lat := { Latches.atReset with cmd := .modmul, a := a, b := b, m := m } }

/-- A block that runs 5^e mod 19 on the given lanes, striped, all its lanes in use. -/
def running (e : Word) (lanes : List Lane) (acc : Word) : State :=
  { fitted lanes.length with
    status := busyStatus, eng := .exp, lanes := lanes, acc := acc
    lat := { cmd := .modexp, a := 5, b := e, m := 19, w := BitVec.ofNat 8 lanes.length, part := 0, sets := [] } }

/-- The answer is a next state that passes the check. -/
def nextIs (r : Result) (check : State → Bool) : Bool :=
  match r with
  | .next s => check s
  | .fault _ | .refused _ => false

/-- The answer is this fault. -/
def faultIs (r : Result) (f : Fault) : Bool :=
  match r with
  | .fault g => decide (g = f)
  | .next _ | .refused _ => false

/-- The state of an answer (the given one where it is none). -/
def stateOf (r : Result) (s : State) : State :=
  match r with
  | .next t => t
  | .fault _ | .refused _ => s

/-- What a step answers is a next state. -/
theorem next_stateOf {r : Result} {s : State} (h : nextIs r (fun _ => true) = true) : r = .next (stateOf r s) := by
  cases r <;> simp [nextIs, stateOf] at *

/-! Well-formedness: a good script, and for each check one that it refuses. -/

theorem test_wellFormed_polling_script :
    scriptWellFormed (Pseudo.expand (.modexpOf (.num 5) (.num 117) (.num 19) 0)) = true := by decide

theorem test_wellFormed_refuses_duplicate_label :
    scriptWellFormed [.label 1, .rd .status, .label 1] = false := by decide

theorem test_wellFormed_refuses_undeclared_target :
    scriptWellFormed [.rd .status, .ifGoto (.eq (.name (.reg .status)) (.num 1)) 2] = false := by decide

theorem test_wellFormed_refuses_unbound_name :
    scriptWellFormed [.wr .opa (.name (.user 3))] = false := by decide

theorem test_wellFormed_refuses_wide_literal :
    scriptWellFormed [.wr .opa (.num (2 ^ 64))] = false := by decide

/-! Decoding: words written out from R70 (CMD in bits [3:0], bits [63:4] ignored). -/

theorem test_decode_clear : decodeWord 0x0000000000000010 = .clear 0x000000000000001 := by decide
theorem test_decode_modmul : decodeWord 0xFFFFFFFFFFFFFFF1 = .modmul 0xFFFFFFFFFFFFFFF := by decide
theorem test_decode_modexp : decodeWord 0x8000000000000002 = .modexp 0x800000000000000 := by decide
theorem test_decode_reserved3 : decodeWord 0x0000000000000003 = .reserved3 0 := by decide
theorem test_decode_reserved4 : decodeWord 0x0000000000000004 = .reserved4 0 := by decide
theorem test_decode_reserved5 : decodeWord 0x0000000000000005 = .reserved5 0 := by decide
theorem test_decode_reserved6 : decodeWord 0x0000000000000006 = .reserved6 0 := by decide
theorem test_decode_reserved7 : decodeWord 0x0000000000000127 = .reserved7 0x12 := by decide
theorem test_decode_reserved8 : decodeWord 0x0000000000000008 = .reserved8 0 := by decide
theorem test_decode_reserved9 : decodeWord 0x0000000000000009 = .reserved9 0 := by decide
theorem test_decode_reservedA : decodeWord 0x000000000000000A = .reservedA 0 := by decide
theorem test_decode_reservedB : decodeWord 0x000000000000000B = .reservedB 0 := by decide
theorem test_decode_reservedC : decodeWord 0x000000000000000C = .reservedC 0 := by decide
theorem test_decode_reservedD : decodeWord 0x000000000000000D = .reservedD 0 := by decide
theorem test_decode_reservedE : decodeWord 0x000000000000000E = .reservedE 0 := by decide
theorem test_decode_reservedF : decodeWord 0xFFFFFFFFFFFFFFFF = .reservedF 0xFFFFFFFFFFFFFFF := by decide

/-- Lane 0 carries bits [7:0] (R54). -/
theorem test_decode_bytes : decodeBytes [0x21, 0x43, 0, 0, 0, 0, 0, 0x80] = .ok (.modmul 0x800000000000432) := by
  decide

theorem test_decode_bytes_refuses_other_lengths :
    decodeBytes [] = .error .notEightBytes ∧ decodeBytes [1] = .error .notEightBytes ∧
    decodeBytes [1, 0, 0, 0, 0, 0, 0, 0, 0] = .error .notEightBytes := by decide

theorem test_encode : encode (.modmul 0x432) = 0x4321 ∧ encode (.reservedF 0) = 0xF := by decide

/-! MODMUL: V-MUL-4, V-MUL-9 for the multiplier; the example of R92 and V-MUL-12 for the command. -/

theorem test_modmul_uses_all_128_bits :
    modmul 0xFFFFFFFFFFFFFFFF 0xFFFFFFFFFFFFFFFF 0x8000000000000000 = some 1 := by decide

theorem test_modmul_general :
    modmul 0xDEADBEEFCAFEBABE 0x123456789ABCDEF0 0xFFFFFFFFFFFFFFC5 = some 0x91AB655ED6F64399 := by decide

theorem test_modmul_accept :
    nextIs (exec (.modmul 0) (loaded 7 9 10 0 3)) (fun t =>
      t.status.toWord = 0x1 ∧ t.lat.a = 7 ∧ t.lat.b = 9 ∧ t.lat.m = 10 ∧ t.result = 0) = true := by decide

theorem test_modmul_completes :
    nextIs (controllerStep (multiplying 12345678901234567890 9876543210987654321 0x1FFFFFFFFFFFFFFF)) (fun t =>
      t.status.toWord = 0x2 ∧ t.result = 0x1FB3EB102176D630 ∧ t.eng = .idle) = true := by decide

/-! CLEAR: V-CTL-7 and V-CTL-6. -/

theorem test_clear_status :
    nextIs (exec (.clear 0) (withStatus false false true true 1)) (fun t => t.status.toWord = 0x0) = true := by decide

theorem test_clear_dropped_while_busy :
    nextIs (exec (.clear 0) (multiplying 1 1 3)) (fun t => t.status.toWord = 0x9 ∧ t.ovrlog = 1) = true := by decide

/-! Reserved codes: V-CTL-3, V-CTL-4, the example of R141, V-ERR-8. -/

theorem test_reserved_codes :
    ∀ i ∈ [Instr.reserved3 0, .reserved4 0, .reserved5 0, .reserved6 0, .reserved7 0, .reserved8 0, .reserved9 0,
      .reservedA 0, .reservedB 0, .reservedC 0, .reservedD 0, .reservedE 0, .reservedF 0],
      nextIs (exec i (withStatus false true false false 0)) (fun t =>
        t.status.toWord = 0x34 ∧ t.errlog = [.illegalCmd] ∧ t.result = 0) = true := by decide

theorem test_reserved_before_operands :
    nextIs (exec (.reserved5 0) (loaded 1 1 0 0 3)) (fun t => t.status.toWord = 0x34) = true := by decide

/-! MODEXP acceptance and its errors: R105, R106, V-ERR-6, V-ERR-7, V-ERR-4, V-ERR-5, V-RST-3. -/

theorem test_modexp_accept :
    nextIs (exec (.modexp 0) (loaded 100 3 19 2 0)) (fun t =>
      t.status.toWord = 0x1 ∧ t.acc = 1 ∧ t.eng = .exp ∧ t.lanes.map Lane.ph = [.run, .run] ++ List.replicate 6 .off ∧
      (t.lanes.map Lane.lb).take 2 = [5, 5] ∧ (t.lanes.map fun l => l.todo.length).take 2 = [32, 32]) = true := by
  decide +kernel

theorem test_modexp_error_priority :
    nextIs (exec (.modexp 0) (loaded 1 1 0 0 3)) (fun t => t.status.toWord = 0x14) = true ∧
    nextIs (exec (.modexp 0) (loaded 1 1 19 0 3)) (fun t => t.status.toWord = 0x24) = true ∧
    nextIs (exec (.modexp 0) (loaded 1 1 19 1 3)) (fun t => t.status.toWord = 0x44) = true ∧
    nextIs (exec (.modexp 0) (loaded 1 1 19 9 0)) (fun t => t.status.toWord = 0x44) = true ∧
    nextIs (exec (.modexp 0) State.reset) (fun t => t.status.toWord = 0x14) = true := by decide

/-! The reference: V-EXP-1, V-EXP-4, V-EXP-6, V-EXP-14. -/

theorem test_refModexp :
    refModexp 5 117 19 = some 1 ∧ refModexp 0 0 19 = some 1 ∧ refModexp 7 5 1 = some 0 ∧
    refModexp 0xDEADBEEF 0x10001 0xFFFFFFFFFFFFFFC5 = some 0x92CB439F64E425CA := by decide +kernel

/-! Partitions: V-PART-4, V-PART-6, V-PART-8, V-PART-10. -/

theorem test_striped_sets :
    ((List.range 3).map fun k => (stripedSet 3 k).length) = [22, 21, 21] ∧
    stripedSet 3 1 = (List.range 21).map (fun j => Fin.ofNat 64 (1 + 3 * j)) ∧
    stripedSet 65 63 = [63] ∧ stripedSet 65 64 = [] := by decide +kernel

theorem test_contiguous_sets :
    ((List.range 5).map fun k => (contigStart 5 k, contigLength 5 k)) = [(0, 13), (13, 13), (26, 13), (39, 13), (52, 12)] ∧
    contigSet 10 3 = [21, 22, 23, 24, 25, 26, 27] ∧ contigSet 10 9 = [58, 59, 60, 61, 62, 63] ∧
    contigSet 65 63 = [63] ∧ contigSet 65 64 = [] := by decide +kernel

/-! Worker steps: the trace of 95_test_vectors.md 2.4 (5^117 mod 19, W = 2, striped). -/

theorem test_square_step :
    nextIs (workerStep 1 (running 117 [⟨.run, 5, 0, 5, [2, 4]⟩, ⟨.run, 6, 1, 1, [3, 5]⟩] 1)) (fun t =>
      t.lanes = [⟨.run, 5, 0, 5, [2, 4]⟩, ⟨.run, 17, 2, 1, [3, 5]⟩] ∧ t.acc = 1) = true := by decide

theorem test_absorb_step :
    nextIs (workerStep 0 (running 117 [⟨.run, 17, 2, 5, [2, 4]⟩, ⟨.run, 9, 5, 1, [5]⟩] 1)) (fun t =>
      t.lanes = [⟨.run, 17, 2, 9, [4]⟩, ⟨.run, 9, 5, 1, [5]⟩]) = true ∧
    nextIs (workerStep 1 (running 117 [⟨.run, 17, 2, 5, [2, 4]⟩, ⟨.run, 9, 5, 1, [5]⟩] 1)) (fun t =>
      t.lanes = [⟨.run, 17, 2, 5, [2, 4]⟩, ⟨.ready, 9, 5, 9, []⟩]) = true := by decide

theorem test_combine_step :
    nextIs (workerStep 1 (running 117 [⟨.combined, 0, 0, 17, []⟩, ⟨.ready, 0, 0, 9, []⟩] 17)) (fun t =>
      t.acc = 1 ∧ t.lanes.map Lane.ph = [.combined, .combined]) = true := by decide

theorem test_modexp_completes :
    nextIs (controllerStep (running 117 [⟨.combined, 0, 0, 17, []⟩, ⟨.combined, 0, 0, 9, []⟩] 1)) (fun t =>
      t.result = 1 ∧ t.status.toWord = 0x2 ∧ t.lanes.map Lane.ph = [.off, .off] ∧ t.eng = .idle) = true ∧
    nextIs (controllerStep (running 117 [⟨.combined, 0, 0, 17, []⟩, ⟨.ready, 0, 0, 9, []⟩] 17)) (fun t =>
      t.eng = .exp ∧ t.status.toWord = 0x1) = true := by decide

/-! Register access: V-REG-1 to V-REG-5, V-CTL-8. -/

theorem test_register_writes :
    nextIs (busAccess (.write 0x10 .w64 0xFFFF) (fitted 8)) (fun t => readRegister .config t = 0x3FF) = true ∧
    nextIs (busAccess (.write 0x38 .w64 0x1234) (fitted 8)) (fun t => readRegister .result t = 0) = true ∧
    readRegister .ctrl (fitted 8) = 0 := by decide

theorem test_refused_accesses :
    faultIs (busAccess (.read 0x08 .w32) (fitted 8)) (.bus .width) = true ∧
    faultIs (busAccess (.read 0x0C .w64) (fitted 8)) (.bus .misaligned) = true := by decide

theorem test_modmul_keeps_ovr :
    nextIs (busWrite .ctrl 0x1 { withStatus false true false true 0 with mod := 3 }) (fun t =>
      t.status.toWord = 0x9) = true := by decide

/-! Reset: V-RST-2. -/

theorem test_reset_abandons :
    nextIs (step { running 117 [⟨.run, 5, 0, 1, [0]⟩] 1 with turns := [.reset], result := 7, config := ⟨4, 1⟩ }) (fun t =>
      readRegister .status t = 0 ∧ readRegister .config t = 1 ∧ readRegister .result t = 0 ∧
      readRegister .caps t = 1 ∧ t.eng = .idle ∧ t.lanes.map Lane.ph = [.off]) = true := by decide

/-! The host's script: an expression over a name, a branch, the text of R77. -/

theorem test_host_expression :
    nextIs (hostStep { fitted 8 with
      script := [.wr .opa (.add (.mul (.num 256) (.num 2)) (.bit (.name (.reg .status)) (.num 1)))]
      trace := [.read .status 0xA (.reg .status)] }) (fun t => t.opa = 513) = true := by decide

/-- A value that is no 64-bit value, a remainder by 0 and a name that nothing has read: the write still
happens and the host goes on; where the free value does not matter, the result is the stated one. -/
theorem test_host_expression_without_value :
    (∀ e ∈ [Expr.sub (.num 1) (.num 2), .mod (.num 7) (.num 0), .name (.user 9)],
      nextIs (hostStep { fitted 8 with script := [.wr .opa e] }) (fun t =>
        t.scriptPos = 1 ∧ t.trace.length = 1 ∧ t.opb = 0) = true) ∧
    (writtenValue [] (.mul (.num 0) (.mod (.num 7) (.num 0))) = 0) := by
  refine ⟨by decide, ?_⟩
  have h : (Expr.mul (.num 0) (.mod (.num 7) (.num 0))).eval [] = (0 : Nat) := Int.zero_mul _
  exact writtenValue_of_eval h (by decide)

/-- A branch to its label, and one to a label the script does not declare. -/
theorem test_host_branch :
    nextIs (hostStep { fitted 8 with script := [.label 3, .ifGoto (.lt (.num 1) (.num 2)) 3], scriptPos := 1 })
      (fun t => t.scriptPos = 0) = true ∧
    nextIs (hostStep { fitted 8 with script := [.ifGoto (.lt (.num 1) (.num 2)) 3] })
      (fun t => t.trace = []) = true := by decide

theorem test_transaction_text :
    BusEvent.text (.wrote .opb 117) = "W 0x28 0x0000000000000075".toList ∧
    BusEvent.text (.read .status 0 (.reg .status)) = "R 0x08".toList := by decide

/-! Placing a command word: step runs it as the first instruction after reset. -/

theorem test_placed_word_runs :
    nextIs (step (State.reset.withFetchWord 8 0x35)) (fun t => t.status.toWord = 0x34) = true ∧
    nextIs (step (State.reset.withFetchWord 8 0x02)) (fun t => t.status.toWord = 0x14) = true := by decide

/-! Witnesses: for every obligation with hypotheses, states and operands that meet all of them together, and
each clause of them. -/

/-- STATUS bits that meet R23, from their values. -/
theorem status_ok_of_busy : busyStatus.Ok := ⟨by decide, by decide, by decide, by decide⟩

theorem status_ok_at_reset : (fitted 8).status.Ok := ⟨by decide, by decide, by decide, by decide⟩

theorem fitted_inv : (fitted 8).Inv where
  status := status_ok_at_reset
  engine := by unfold State.EngineOk; decide
  fitted := ⟨by decide, by decide⟩
  latches := ⟨by decide, by decide⟩
  lanes := ⟨by decide, fun h => absurd h (by decide)⟩
  product := fun h => absurd h (by decide)

/-- The invariant does not look at the operand registers, the script or the turns. -/
theorem inv_of_block {s t : State} (h : s.Inv) (hst : t.status = s.status) (heng : t.eng = s.eng)
    (hcaps : t.caps = s.caps) (hlanes : t.lanes = s.lanes) (hlat : t.lat = s.lat) (hacc : t.acc = s.acc) : t.Inv where
  status := by rw [hst]; exact h.status
  engine := by unfold State.EngineOk; rw [heng, hst]; exact h.engine
  fitted := by unfold State.LanesFitted; rw [hcaps, hlanes]; exact h.fitted
  latches := ⟨by rw [heng, hlat]; exact h.latches.mulLatched, by rw [heng, hlat, hcaps]; exact h.latches.expLatched⟩
  lanes := ⟨by rw [heng, hlanes]; exact h.lanes.offUnlessExp, by rw [heng, hlanes, hlat]; exact h.lanes.laneOk⟩
  product := by unfold State.ProductOk; rw [heng, hlat, hacc, hlanes]; exact h.product

theorem loaded_inv (a b m : Word) (w : BitVec 8) (part : BitVec 2) : (loaded a b m w part).Inv :=
  inv_of_block fitted_inv rfl rfl rfl rfl rfl rfl

theorem multiplying_inv : (multiplying 7 9 10).Inv where
  status := status_ok_of_busy
  engine := by unfold State.EngineOk; decide
  fitted := ⟨by decide, by decide⟩
  latches := ⟨fun _ => ⟨rfl, by decide⟩, fun h => absurd h (by decide)⟩
  lanes := ⟨fun _ => by decide, fun h => absurd h (by decide)⟩
  product := fun h => absurd h (by decide)

/-- Two lanes of 5^1 mod 19: worker 0 has index 0 to absorb, worker 1 a squaring to do. -/
def twoLanes : List Lane := [⟨.run, 5, 0, 1, [0]⟩, ⟨.run, 5, 0, 1, [1]⟩]

theorem twoLanes_inv : (running 1 twoLanes 1).Inv where
  status := status_ok_of_busy
  engine := by unfold State.EngineOk; decide
  fitted := ⟨by decide, by decide⟩
  latches := ⟨fun h => absurd h (by decide), fun _ => ⟨rfl, by decide, by decide, by decide, by decide⟩⟩
  lanes := by
    refine ⟨fun h => absurd rfl h, fun _ k l hl => ?_⟩
    rcases k with _ | _ | k
    · obtain rfl : (⟨.run, 5, 0, 1, [0]⟩ : Lane) = l := Option.some.inj hl
      exact ⟨by decide, fun _ => ⟨0, by decide, by decide⟩, by decide, by decide, by decide, by decide⟩
    · obtain rfl : (⟨.run, 5, 0, 1, [1]⟩ : Lane) = l := Option.some.inj hl
      exact ⟨by decide, fun _ => ⟨1, by decide, by decide⟩, by decide, by decide, by decide, by decide⟩
    · cases hl
  product := by unfold State.ProductOk; decide

/-- One lane of 5^1 mod 19, with its partial product still to combine. -/
def readyLane : List Lane := [⟨.ready, 5, 0, 5, []⟩]

theorem readyLane_inv : (running 1 readyLane 1).Inv where
  status := status_ok_of_busy
  engine := by unfold State.EngineOk; decide
  fitted := ⟨by decide, by decide⟩
  latches := ⟨fun h => absurd h (by decide), fun _ => ⟨rfl, by decide, by decide, by decide, by decide⟩⟩
  lanes := by
    refine ⟨fun h => absurd rfl h, fun _ k l hl => ?_⟩
    rcases k with _ | k
    · obtain rfl : (⟨.ready, 5, 0, 5, []⟩ : Lane) = l := Option.some.inj hl
      exact ⟨by decide, by decide, by decide, by decide, by decide, by decide⟩
    · cases hl
  product := by unfold State.ProductOk; decide

/-- The same lane once combined. -/
def combinedLane : List Lane := [⟨.combined, 5, 0, 5, []⟩]

theorem combinedLane_inv : (running 1 combinedLane 5).Inv where
  status := status_ok_of_busy
  engine := by unfold State.EngineOk; decide
  fitted := ⟨by decide, by decide⟩
  latches := ⟨fun h => absurd h (by decide), fun _ => ⟨rfl, by decide, by decide, by decide, by decide⟩⟩
  lanes := by
    refine ⟨fun h => absurd rfl h, fun _ k l hl => ?_⟩
    rcases k with _ | k
    · obtain rfl : (⟨.combined, 5, 0, 5, []⟩ : Lane) = l := Option.some.inj hl
      exact ⟨by decide, by decide, by decide, by decide, by decide, by decide⟩
    · cases hl
  product := by unfold State.ProductOk; decide

theorem witness_DecodeEncodeAgree : (Instr.reservedF (BitVec.allOnes 60)).wellFormed = true := by decide

theorem witness_ByteLanesAreLittleEndian : 0 < 8 ∧ 7 < 8 := by decide

theorem witness_ClearClearsStatus :
    (withStatus false true false true 0).status.busy = false ∧ (multiplying 1 1 3).status.busy = true := by decide

theorem witness_ReservedCodesRaiseIllegalCmd :
    (fitted 8).status.busy = false ∧ (multiplying 1 1 3).status.busy = true := by decide

/-- OVR is cleared by the host's CLEAR and by reset. -/
theorem witness_WritesWhileBusyAreDropped :
    let s : State := withStatus false true false true 0
    (multiplying 1 1 3).status.busy = true ∧
    (s.status.ovr = true ∧
      nextIs (step { s with turns := [.host], script := [.wr .ctrl (.num 0x10)] }) (fun t => t.status.ovr = false) = true ∧
      nextIs (step { s with turns := [.reset] }) (fun t => t.status.ovr = false) = true) := by decide

theorem witness_ModmulIsAccepted : (loaded 7 9 10 0 3).status.busy = false ∧ (loaded 7 9 10 0 3).mod ≠ 0#64 := by
  decide

/-- The smallest and the largest W of 8 lanes, under each legal PART; W = 65 leaves an empty set. -/
theorem witness_ModexpIsAccepted :
    (∀ w ∈ [1#8, 8#8], ∀ part ∈ [0#2, 1#2, 2#2],
      (loaded 5 117 19 w part).status.busy = false ∧ (loaded 5 117 19 w part).modexpLegal) ∧
    (loaded 5 117 19 2 0).lanes[1]? = some Lane.atReset ∧ (loaded 5 117 19 2 0).lanes[2]? = some Lane.atReset ∧
    ({ fitted 65 with opa := 5, opb := 117, mod := 19, config := ⟨65, 0⟩ } : State).modexpLegal ∧
    assignedSet { Latches.atReset with w := 65 } 64 = [] := by
  unfold State.modexpLegal; decide +kernel

/-- CMD 3 and 15, MODMUL and MODEXP with MOD 0, W 0, W one above W_MAX, PART 3. -/
theorem witness_ErrorsAreRecordedInPriorityOrder :
    (loaded 1 1 0 0 3).status.busy = false ∧
    2 < ((0x3#64).extractLsb' 0 4).toNat ∧ 2 < ((0xF#64).extractLsb' 0 4).toNat ∧
    ((0x1#64).extractLsb' 0 4 = 1 ∧ (0x2#64).extractLsb' 0 4 = 2 ∧ (loaded 1 1 0 0 3).mod = 0#64) ∧
    ((loaded 1 1 19 0 3).mod ≠ 0#64 ∧ (loaded 1 1 19 0 3).config.w = 0#8) ∧
    ((loaded 1 1 19 9 0).config.w ≠ 0#8 ∧ (loaded 1 1 19 9 0).caps < (loaded 1 1 19 9 0).config.w) ∧
    ((loaded 1 1 19 8 3).config.w ≠ 0#8 ∧ (loaded 1 1 19 8 3).config.part = 3#2) := by decide

/-- An accepted MODMUL (eng changes) and a CLEAR (eng stays). -/
theorem witness_FrameOfCommands :
    (loaded 7 9 10 0 3).EngineOk ∧
    nextIs (exec (.modmul 0) (loaded 7 9 10 0 3)) (fun t => t.eng ≠ .idle) = true ∧
    nextIs (exec (.clear 0) (loaded 7 9 10 0 3)) (fun t => t.eng = .idle) = true := by
  unfold State.EngineOk; decide

/-- With the turn decided, and with the host the only enabled agent. -/
theorem witness_StepRunsDecodedCommand :
    let s : State := { loaded 7 9 10 0 3 with script := [.wr .ctrl (.num 1)] }
    s.script[s.scriptPos]? = some (.wr .ctrl (.num 1)) ∧ writtenValue s.trace (.num 1) = 1 ∧
    decodeWord 1 = .modmul 0 ∧ (Instr.modmul 0).wellFormed = true ∧
    ({ s with turns := [.host] } : State).turns = .host :: [] ∧
    (s.turns = [] ∧ enabledTurns s = [.host]) := by decide

theorem witness_PlacedWordRunsNext : decodeTableWord 8 0x32 = some (.modexp 3) := by decide

theorem witness_ModmulIsExact : (1#64) ≠ 0#64 ∧ BitVec.allOnes 64 ≠ 0#64 := by decide

theorem witness_ModmulLaws : (1#64) ≠ 0#64 := by decide

theorem witness_ModmulCompletion : (multiplying 7 9 10).eng = .mul ∧ (multiplying 7 9 10).lat.m ≠ 0#64 := by decide

theorem witness_ReferenceIsPower : (1#64) ≠ 0#64 := by decide

theorem witness_StripedOwnership : 1 ≤ 255 ∧ 63 < 255 ∧ (64 < 255 ∧ 64 ≤ 64) := by decide

/-- W = 10: worker 3 is the last with q + 1 indices, worker 4 the first with q. W = 65: worker 63 owns one,
worker 64 none. -/
theorem witness_ContiguousBlocks :
    (3 < 10 ∧ 3 < 64 % 10) ∧ (4 < 10 ∧ 64 % 10 ≤ 4) ∧ (64 < 65 ∧ (63 : BitIndex).val = 63 ∧ 63 < 65) ∧
    (64 < 65 ∧ 64 ≤ 64) := by decide

theorem witness_PartitionLaw :
    ∀ part ∈ [0#2, 1#2, 2#2], (loaded 5 117 19 1 part).modexpLegal ∧ (loaded 5 117 19 8 part).modexpLegal := by
  unfold State.modexpLegal; decide

theorem witness_SquareStep :
    let s := running 1 twoLanes 1
    s.lanes[1]? = some ⟨.run, 5, 0, 1, [1]⟩ ∧ minIndex [(1 : BitIndex)] = some 1 ∧ (0 : BitIndex) < 1 ∧
    s.lat.m ≠ 0#64 := by decide

/-- A set bit and the last index; a clear bit with an index left. -/
theorem witness_AbsorbStep :
    let l : Lane := ⟨.run, 17, 3, 5, [3, 4]⟩
    ((running 1 twoLanes 1).lanes[0]? = some ⟨.run, 5, 0, 1, [0]⟩ ∧ minIndex [(0 : BitIndex)] = some 0 ∧
      (running 1 twoLanes 1).lat.b.getLsbD 0 = true) ∧
    ((running 117 [l] 1).lanes[0]? = some l ∧ minIndex l.todo = some l.p ∧ (running 117 [l] 1).lat.b.getLsbD 3 = false) ∧
    (running 117 [l] 1).lat.m ≠ 0#64 := by decide

theorem witness_CombineStep :
    let l : Lane := ⟨.ready, 5, 0, 1, []⟩
    let s := running 0 [l] 18
    s.lanes[0]? = some l ∧ l.ph = .ready ∧ s.eng = .exp ∧ s.lat.m ≠ 0#64 ∧ l.lr = 1#64 ∧
    s.acc.toNat < s.lat.m.toNat := by decide

/-- Every lane combined; one lane still running. -/
theorem witness_ModexpCompletion :
    ((running 1 combinedLane 5).eng = .exp ∧ (∀ l ∈ (running 1 combinedLane 5).lanes, l.ph = .combined) ∧
      nextIs (runTurn .controller (running 1 combinedLane 5)) (fun t => t.eng = .idle) = true) ∧
    ((running 1 twoLanes 1).eng = .exp ∧ 1 < (running 1 twoLanes 1).lat.w.toNat ∧
      (running 1 twoLanes 1).lanes[1]? = some ⟨.run, 5, 0, 1, [1]⟩) := by decide

/-- Two machines that differ in their other lane, their accumulator and their base. -/
theorem witness_WorkerStepsArePrivate :
    let l : Lane := ⟨.run, 5, 0, 1, [1]⟩
    let s := running 1 [⟨.run, 5, 0, 1, [0]⟩, l] 1
    let u := running 1 [⟨.ready, 5, 0, 5, []⟩, l] 7
    s.lanes[1]? = some l ∧ u.lanes[1]? = some l ∧ l.ph = .run ∧ u.lat.b = s.lat.b ∧ u.lat.m = s.lat.m ∧
    s.lat.m ≠ 0#64 := by decide

theorem witness_WorkerStepsCommute : 0 ≠ 1 ∧ (running 1 twoLanes 1).lat.m ≠ 0#64 := by decide

/-- The leaves of a tree in another order than the workers'. -/
theorem witness_CollectiveReductionAgrees :
    (19#64) ≠ 0#64 ∧
    (ReduceTree.node (.leaf 9) (.node (.leaf (1#64 % 19)) (.leaf 17))).leaves.Perm ((1#64 % 19) :: [17, 9]) := by decide

/-! A whole MODEXP of one worker (63 SQUARE, 64 ABSORB, one COMBINE) and one of two workers with contiguous
blocks, so that the statements about a completed command have a run to speak of. -/

/-- The command in flight is still in flight after each of the first `n` steps: the check, in one pass. -/
def staysFor : Nat → Eng → State → Bool
  | 0, e, s => decide (s.eng = e)
  | n + 1, e, s => decide (s.eng = e) && nextIs (step s) (staysFor n e)

theorem inFlight_of_staysFor (n : Nat) : ∀ {e : Eng} {s : State}, staysFor n e s = true →
    ∀ j ≤ n, ∃ u, Sys2Proof.core.run j s = .next u ∧ u.eng = e := by
  induction n with
  | zero =>
    intro e s h j hj
    obtain rfl := Nat.le_zero.mp hj
    exact ⟨s, run_zero s, by simpa [staysFor] using h⟩
  | succ n ih =>
    intro e s h j hj
    simp only [staysFor, Bool.and_eq_true, decide_eq_true_eq] at h
    rcases j with _ | j
    · exact ⟨s, run_zero s, h.1⟩
    · cases hs : step s with
      | next t =>
        have ht : staysFor n e t = true := by simpa [hs, nextIs] using h.2
        obtain ⟨u, hu, he⟩ := ih ht j (by omega)
        exact ⟨u, (run_succ j hs).trans hu, he⟩
      | fault r => simp [hs, nextIs] at h
      | refused r => simp [hs, nextIs] at h

/-- The state after `n` steps. -/
def after : Nat → State → State
  | 0, s => s
  | n + 1, s => after n (stateOf (step s) s)

theorem run_after (n : Nat) : ∀ {e : Eng} {s : State}, staysFor n e s = true →
    Sys2Proof.core.run n s = .next (after n s) := by
  induction n with
  | zero => intro e s _; exact run_zero s
  | succ n ih =>
    intro e s h
    simp only [staysFor, Bool.and_eq_true] at h
    have hn : nextIs (step s) (fun _ => true) = true := by
      cases hs : step s with
      | next t => rfl
      | fault r => simp [hs, nextIs] at h
      | refused r => simp [hs, nextIs] at h
    have hs := next_stateOf (s := s) hn
    have ht : staysFor n e (stateOf (step s) s) = true := by
      have h2 := h.2
      rw [hs] at h2
      exact h2
    exact (run_succ n hs).trans (ih ht)

/-- 5^117 mod 19 by one striped worker, with the turns that complete it. -/
def oneWorker : State :=
  { loaded 5 117 19 1 0 with turns := List.replicate 128 (.worker 0) ++ [.controller] }

/-- 5^117 mod 19 by two workers with contiguous blocks, the second one first. -/
def twoWorkers : State :=
  { loaded 5 117 19 2 1 with
    turns := List.replicate 96 (.worker 1) ++ List.replicate 64 (.worker 0) ++ [.controller] }

/-- The state the command starts in. -/
def started (i : Instr) (s : State) : State := stateOf (exec i s) s

/-- The run of a command in flight for `n` steps that the step after them ends. -/
theorem run_witness {i : Instr} {s : State} {n : Nat} {e : Eng} (hx : nextIs (exec i s) (fun _ => true) = true)
    (he : (started i s).eng = e) (hn : staysFor n e (started i s) = true)
    (hd : nextIs (step (after n (started i s))) (fun t => t.eng = .idle) = true) :
    ∃ t u v, exec i s = .next t ∧ InFlightFor n t ∧ Sys2Proof.core.run n t = .next u ∧ step u = .next v ∧
      v.eng = .idle := by
  refine ⟨started i s, after n (started i s), stateOf (step (after n (started i s))) s, next_stateOf hx, ?_,
    run_after n hn, ?_, ?_⟩
  · intro j hj
    rw [he]
    exact inFlight_of_staysFor n hn j hj
  · cases hs : step (after n (started i s)) <;> simp [hs, nextIs] at hd
    simp [stateOf]
  · cases hs : step (after n (started i s)) <;> simp [hs, nextIs] at hd
    simpa [stateOf] using hd

theorem oneWorker_run : ∃ t u v, exec (.modexp 0) oneWorker = .next t ∧ InFlightFor 128 t ∧
    Sys2Proof.core.run 128 t = .next u ∧ step u = .next v ∧ v.eng = .idle :=
  run_witness (e := .exp) (by decide +kernel) (by decide +kernel) (by decide +kernel) (by decide +kernel)

theorem twoWorkers_run : ∃ t u v, exec (.modexp 0) twoWorkers = .next t ∧ InFlightFor 160 t ∧
    Sys2Proof.core.run 160 t = .next u ∧ step u = .next v ∧ v.eng = .idle :=
  run_witness (e := .exp) (by decide +kernel) (by decide +kernel) (by decide +kernel) (by decide +kernel)

theorem oneWorker_ready : oneWorker.Inv ∧ oneWorker.status.busy = false ∧ oneWorker.modexpLegal ∧
    Turn.reset ∉ oneWorker.turns :=
  ⟨inv_of_block fitted_inv rfl rfl rfl rfl rfl rfl, by decide, by unfold State.modexpLegal; decide, by decide +kernel⟩

theorem twoWorkers_ready : twoWorkers.Inv ∧ twoWorkers.status.busy = false ∧ twoWorkers.modexpLegal ∧
    Turn.reset ∉ twoWorkers.turns :=
  ⟨inv_of_block fitted_inv rfl rfl rfl rfl rfl rfl, by decide, by unfold State.modexpLegal; decide, by decide +kernel⟩

theorem witness_ModexpGivesReferenceValue :
    ∃ s t u v : State, ∃ n : Nat, s.Inv ∧ s.status.busy = false ∧ s.modexpLegal ∧ Turn.reset ∉ s.turns ∧
      exec (.modexp 0) s = .next t ∧ InFlightFor n t ∧ Sys2Proof.core.run n t = .next u ∧
      step u = .next v ∧ v.eng = .idle := by
  obtain ⟨t, u, v, h⟩ := oneWorker_run
  exact ⟨oneWorker, t, u, v, 128, oneWorker_ready.1, oneWorker_ready.2.1, oneWorker_ready.2.2.1, oneWorker_ready.2.2.2, h⟩

/-- A MODMUL whose MOD the host overwrites before the controller completes the command. -/
def overwritten : State :=
  { loaded 7 9 10 0 3 with script := [.wr .mod (.num 0)], turns := [.host, .controller] }

theorem witness_ModmulGivesProduct :
    ∃ s t u v : State, ∃ n : Nat, s.Inv ∧ s.status.busy = false ∧ s.mod ≠ 0#64 ∧ Turn.reset ∉ s.turns ∧
      exec (.modmul 0) s = .next t ∧ InFlightFor n t ∧ Sys2Proof.core.run n t = .next u ∧
      step u = .next v ∧ v.eng = .idle := by
  obtain ⟨t, u, v, h⟩ :=
    run_witness (i := .modmul 0) (s := overwritten) (n := 1) (e := .mul) (by decide) (by decide) (by decide) (by decide)
  exact ⟨overwritten, t, u, v, 1, inv_of_block fitted_inv rfl rfl rfl rfl rfl rfl, by decide, by decide, by decide, h⟩

theorem witness_ResultIndependentOfWorkersAndOrder :
    oneWorker.opa = twoWorkers.opa ∧ oneWorker.opb = twoWorkers.opb ∧ oneWorker.mod = twoWorkers.mod ∧
    (∃ t u v, oneWorker.Inv ∧ oneWorker.status.busy = false ∧ oneWorker.modexpLegal ∧ Turn.reset ∉ oneWorker.turns ∧
      exec (.modexp 0) oneWorker = .next t ∧ InFlightFor 128 t ∧ Sys2Proof.core.run 128 t = .next u ∧
      step u = .next v ∧ v.eng = .idle) ∧
    (∃ t u v, twoWorkers.Inv ∧ twoWorkers.status.busy = false ∧ twoWorkers.modexpLegal ∧ Turn.reset ∉ twoWorkers.turns ∧
      exec (.modexp 0) twoWorkers = .next t ∧ InFlightFor 160 t ∧ Sys2Proof.core.run 160 t = .next u ∧
      step u = .next v ∧ v.eng = .idle) := by
  obtain ⟨t, u, v, h⟩ := oneWorker_run
  obtain ⟨t', u', v', h'⟩ := twoWorkers_run
  exact ⟨rfl, rfl, rfl, ⟨t, u, v, oneWorker_ready.1, oneWorker_ready.2.1, oneWorker_ready.2.2.1, oneWorker_ready.2.2.2, h⟩,
    ⟨t', u', v', twoWorkers_ready.1, twoWorkers_ready.2.1, twoWorkers_ready.2.2.1, twoWorkers_ready.2.2.2, h'⟩⟩

/-! Witnesses of the statements about one step of any machine. -/

/-- The machine with these turns decided. -/
def turned (s : State) (turns : List Turn) : State := { s with turns := turns }

theorem witness_StatusInvariantKept :
    (turned (multiplying 7 9 10) [.controller]).status.Ok ∧ (turned (multiplying 7 9 10) [.controller]).EngineOk ∧
    nextIs (step (turned (multiplying 7 9 10) [.controller])) (fun t => t.status.done) = true :=
  ⟨status_ok_of_busy, by unfold State.EngineOk; decide, by decide⟩

/-- A state for each change of STATUS: acceptance, completion, error, CLEAR, a code that replaces another,
overrun. -/
theorem witness_StatusBitsChangeOnlyWhereNamed :
    let host (s : State) (w : Nat) : State := { s with script := [.wr .ctrl (.num w)], turns := [.host] }
    (nextIs (step (host (loaded 7 9 10 0 3) 1)) (fun t => t.status.busy) = true ∧
      nextIs (step (turned (multiplying 7 9 10) [.controller])) (fun t => !t.status.busy && t.status.done) = true ∧
      nextIs (step (host (withStatus false true false false 0) 3)) (fun t =>
        !t.status.done && t.status.err && decide (t.status.errcode = 3)) = true ∧
      nextIs (step (host (withStatus false false true true 3) 0)) (fun t =>
        !t.status.err && !t.status.ovr && decide (t.status.errcode = 0)) = true ∧
      nextIs (step (host (withStatus false false true true 3) 1)) (fun t => decide (t.status.errcode = 1)) = true ∧
      nextIs (step (host (multiplying 7 9 10) 0)) (fun t => t.status.ovr) = true) ∧
    (loaded 7 9 10 0 3).EngineOk ∧ (multiplying 7 9 10).EngineOk ∧ (withStatus false true false false 0).EngineOk ∧
    (withStatus false false true true 3).EngineOk ∧ ¬(turned (fitted 8) [.host]).resetNext ∧
    ¬(turned (fitted 8) [.controller]).resetNext := by
  unfold State.EngineOk State.resetNext; decide

theorem witness_EngineBusyInvariantKept :
    (turned (multiplying 7 9 10) [.controller]).EngineOk ∧
    nextIs (step (turned (multiplying 7 9 10) [.controller])) (fun t => t.eng = .idle) = true := by
  unfold State.EngineOk; decide

/-- In an idle, a multiplying and an exponentiating machine. -/
theorem witness_MachineInvariantKept :
    (turned (fitted 8) [.host]).Inv ∧ (turned (multiplying 7 9 10) [.controller]).Inv ∧
    ((turned (running 1 twoLanes 1) [.worker 1]).Inv ∧
      nextIs (step (turned (running 1 twoLanes 1) [.worker 1])) (fun t => (t.lanes.map Lane.p) = [0, 1]) = true) ∧
    (turned (running 1 readyLane 1) [.worker 0]).Inv ∧ (turned (running 1 combinedLane 5) [.controller]).Inv :=
  ⟨inv_of_block fitted_inv rfl rfl rfl rfl rfl rfl, inv_of_block multiplying_inv rfl rfl rfl rfl rfl rfl,
    ⟨inv_of_block twoLanes_inv rfl rfl rfl rfl rfl rfl, by decide⟩,
    inv_of_block readyLane_inv rfl rfl rfl rfl rfl rfl, inv_of_block combinedLane_inv rfl rfl rfl rfl rfl rfl⟩

theorem witness_NoStepMultipliesModuloZero : (running 1 twoLanes 1).Inv := twoLanes_inv

theorem witness_CapsIsConstant :
    nextIs (step (turned (fitted 8) [.reset])) (fun t => t.caps = 8) = true := by decide

/-- A step that keeps RESULT, the reset input, and a completion. -/
theorem witness_ResultWrittenOnlyByCompletion :
    nextIs (step (turned (running 1 readyLane 1) [.worker 0])) (fun t => t.result = 0) = true ∧
    nextIs (step (turned { fitted 8 with result := 7 } [.reset])) (fun t => t.result = 0) = true ∧
    nextIs (step (turned (running 1 combinedLane 5) [.controller])) (fun t => t.result = 5) = true := by decide

theorem witness_LatchesWrittenOnlyByAcceptance :
    (loaded 7 9 10 0 3).EngineOk ∧
    nextIs (step { loaded 7 9 10 0 3 with script := [.wr .ctrl (.num 1)], turns := [.host] }) (fun t =>
      t.lat.a = 7 ∧ t.eng = .mul) = true ∧
    nextIs (step { loaded 5 117 19 1 0 with script := [.wr .ctrl (.num 2)], turns := [.host] }) (fun t =>
      t.lat.b = 117 ∧ t.eng = .exp) = true := by unfold State.EngineOk; decide +kernel

/-- An ABSORB that ends a worker's indices, and a COMBINE. -/
theorem witness_ContributionsAreAppliedOnce :
    (running 1 twoLanes 1).EngineOk ∧ (running 1 twoLanes 1).eng = .exp ∧
    nextIs (step (turned (running 1 twoLanes 1) [.worker 0])) (fun t =>
      t.eng = .exp ∧ t.lanes.map Lane.ph = [.ready, .run]) = true ∧
    nextIs (step (turned (running 1 readyLane 1) [.worker 0])) (fun t =>
      t.eng = .exp ∧ t.acc = 5 ∧ t.lanes.map Lane.ph = [.combined]) = true := by unfold State.EngineOk; decide

theorem witness_ErrorHistoryOnlyGrows :
    nextIs (step { withStatus false false true false 3 with
      errlog := [.illegalCmd], script := [.wr .ctrl (.num 1)], turns := [.host] }) (fun t =>
        t.errlog = [.illegalCmd, .zeroModulus]) = true := by decide

theorem witness_OnlyACtrlWriteLeavesIdle :
    (loaded 7 9 10 0 3).eng = .idle ∧
    nextIs (step { loaded 7 9 10 0 3 with script := [.wr .ctrl (.num 1)], turns := [.host] }) (fun t =>
      t.eng ≠ .idle) = true := by decide

theorem witness_EveryInternalStepIsProgress :
    ((running 1 twoLanes 1).Inv ∧ workerEnabled (running 1 twoLanes 1) 0 = true ∧
      workerEnabled (running 1 twoLanes 1) 1 = true) ∧
    ((running 1 readyLane 1).Inv ∧ workerEnabled (running 1 readyLane 1) 0 = true) ∧
    ((running 1 combinedLane 5).Inv ∧ controllerEnabled (running 1 combinedLane 5) = true) ∧
    ((multiplying 7 9 10).Inv ∧ controllerEnabled (multiplying 7 9 10) = true) :=
  ⟨⟨twoLanes_inv, by decide, by decide⟩, ⟨readyLane_inv, by decide⟩, ⟨combinedLane_inv, by decide⟩,
    ⟨multiplying_inv, by decide⟩⟩

theorem witness_AcceptedWorkIsBounded :
    oneWorker.Inv ∧ oneWorker.status.busy = false ∧ oneWorker.modexpLegal ∧ ∃ t, exec (.modexp 0) oneWorker = .next t := by
  obtain ⟨t, _, _, h, _⟩ := oneWorker_run
  exact ⟨oneWorker_ready.1, oneWorker_ready.2.1, oneWorker_ready.2.2.1, t, h⟩

theorem witness_NoDeadlockWhileBusy :
    (running 1 twoLanes 1).Inv ∧ (running 1 twoLanes 1).eng ≠ .idle ∧ (multiplying 7 9 10).Inv ∧
    (multiplying 7 9 10).eng ≠ .idle := ⟨twoLanes_inv, by decide, multiplying_inv, by decide⟩

/-- Two rounds, the controller first in each, for a lane that has its COMBINE left, while the host polls in
the `wait` loop and reads RESULT by an access line. -/
theorem witness_FairTurnsComplete :
    let rounds : List (List Turn) := [[.host, .controller, .host, .worker 0], [.controller, .host, .worker 0, .host]]
    let s : State := { turned (running 1 readyLane 1) rounds.flatten with
      script := Pseudo.expand (.wait 0) ++ [.access (.read 0x38 .w64)] }
    s.Inv ∧ s.eng ≠ .idle ∧ s.AccessesAdmitted ∧ s.turns = rounds.flatten ∧
    (∀ r ∈ rounds, Turn.reset ∉ r ∧ Turn.controller ∈ r ∧ ∀ k < s.caps.toNat, Turn.worker k ∈ r) ∧
    s.work ≤ rounds.length := by
  refine ⟨inv_of_block readyLane_inv rfl rfl rfl rfl rfl rfl, by decide, ?_, rfl, by decide, by decide⟩
  intro a ha u kind
  obtain rfl : a = BusAccess.read 0x38 .w64 := by
    simpa [turned, running, fitted, State.reset, Pseudo.expand, waitLines] using ha
  intro h
  cases h

/-- The offsets at the ends of the window and in it. -/
theorem witness_WindowAdmission :
    (0x00 < 64 ∧ 0x00 % 8 = 0) ∧ (0x38 < 64 ∧ 0x38 % 8 = 0) ∧ (0x3F < 64 ∧ 0x3F % 8 ≠ 0) ∧
    (0x0C < 64 ∧ 0x0C % 8 ≠ 0) ∧ AccessWidth.w32 ≠ .w64 ∧ AccessWidth.w128 ≠ .w64 := by decide

theorem witness_AccessesElsewhereChangeNothing :
    (64 ≤ (64 : Int) ∨ (64 : Int) + AccessWidth.w8.bytes ≤ 0) ∧ (64 ≤ (-8 : Int) ∨ (-8 : Int) + AccessWidth.w64.bytes ≤ 0) ∧
    (64 ≤ (-1 : Int) ∨ (-1 : Int) + AccessWidth.w8.bytes ≤ 0) := by decide

theorem witness_ResetAtAnyTime : (turned (running 1 twoLanes 1) [.reset]).turns = .reset :: [] := by decide

/-- Lanes with other data than those of log 4; and a machine that runs a striped MODEXP, with another
leftover partition and other data in a lane that is done. -/
theorem witness_UnspecifiedStateIsNeverRead :
    (∃ lanes : List Lane, lanes.length = Config.wMax.toNat ∧ (∀ l ∈ lanes, l.ph = .off ∧ l.lb = 9)) ∧
    (∃ s u : State, s.Inv ∧ AgreeWhereDefined s u ∧ s ≠ u ∧
      nextIs (step s) (fun _ => true) = true) := by
  refine ⟨⟨List.replicate Config.wMax.toNat { Lane.atReset with lb := 9 }, by simp, ?_⟩, ?_⟩
  · intro l hl
    rw [List.eq_of_mem_replicate hl]
    exact ⟨rfl, rfl⟩
  · let s := turned (running 1 combinedLane 5) [.controller]
    refine ⟨s, { s with lat := { s.lat with sets := [[1]] }, lanes := [⟨.combined, 8, 1, 2, [3]⟩] },
      inv_of_block combinedLane_inv rfl rfl rfl rfl rfl rfl, ⟨rfl, by decide, ?_, by decide, by decide⟩, by decide, by decide⟩
    intro k l hl hp
    rcases k with _ | k
    · obtain rfl : (⟨.combined, 5, 0, 5, []⟩ : Lane) = l := Option.some.inj hl
      revert hp
      decide
    · cases hl

/-- The loop at the start of the script, in an idle and in a busy block. -/
theorem witness_WaitPollsUntilIdle :
    let polling (s : State) : State :=
      { s with script := .rd .caps :: Pseudo.expand (.wait 4), scriptPos := 1, turns := [.host, .host, .host] }
    (polling (fitted 8)).script = [.rd .caps] ++ Pseudo.expand (.wait 4) ++ [] ∧ ScriptLine.label 4 ∉ [ScriptLine.rd .caps] ∧
    (polling (fitted 8)).scriptPos = [ScriptLine.rd .caps].length ∧
    (polling (fitted 8)).turns = .host :: .host :: .host :: [] ∧
    (polling (fitted 8)).status.busy = false ∧ (polling (multiplying 7 9 10)).status.busy = true := by decide

/-- An enabled agent; and none. -/
theorem witness_FreeChoiceIsOfEnabledAgents :
    drawTurn (multiplying 7 9 10) = some .controller ∧ ((fitted 8).turns = [] ∧ drawTurn (fitted 8) = none) := by decide

theorem witness_DisabledTurnsChangeNothing :
    workerEnabled (fitted 8) 0 = false ∧ workerEnabled (fitted 8) 8 = false ∧ controllerEnabled (fitted 8) = false ∧
    hostEnabled (fitted 8) = false := by decide

theorem test_pseudo_expansions :
    Pseudo.expand .clear = [.wr .ctrl (.num 0)] ∧ Pseudo.expand .modmul = [.wr .ctrl (.num 1)] ∧
    Pseudo.expand .modexp = [.wr .ctrl (.num 2)] ∧ Pseudo.expand (.config 2 1) = [.wr .config (.num 258)] := by decide

/-- A step that goes on (a host line with a value no rule states), and a refused access. -/
theorem witness_OnlyRefusedAccessesStop :
    let host (line : ScriptLine) : State := { fitted 8 with script := [line], turns := [.host] }
    ((host (.wr .ctrl (.sub (.num 0) (.num 1)))).Inv ∧ (host (.access (.read 0x0C .w64))).Inv) ∧
    nextIs (step (host (.wr .opa (.sub (.num 0) (.num 1))))) (fun _ => true) = true ∧
    faultIs (step (host (.access (.read 0x0C .w64)))) (.bus .misaligned) = true :=
  ⟨⟨inv_of_block fitted_inv rfl rfl rfl rfl rfl rfl, inv_of_block fitted_inv rfl rfl rfl rfl rfl rfl⟩,
    by decide, by decide⟩

end Sys2Proof.Tests
end

/-! SUPPORT. Proofs about the scope: which turns are enabled and what the free schedule picks, a turn of an
agent with nothing to do, and the offsets of the window against its bus addresses (00_scope.md R8, R13). -/

namespace Sys2Proof.Machine

/-! The enabled turns, agent by agent. -/

/-- A worker beyond the physical lanes has no step enabled. -/
theorem lt_length_of_workerEnabled {s : State} {k : Nat} (h : workerEnabled s k = true) : k < s.lanes.length := by
  by_contra hk
  simp [workerEnabled, List.getElem?_eq_none (not_lt.mp hk)] at h

@[simp] theorem controller_mem_enabledTurns (s : State) :
    Turn.controller ∈ enabledTurns s ↔ controllerEnabled s = true := by
  simp [enabledTurns]

@[simp] theorem host_mem_enabledTurns (s : State) : Turn.host ∈ enabledTurns s ↔ hostEnabled s = true := by
  simp [enabledTurns]

@[simp] theorem worker_mem_enabledTurns (s : State) (k : Nat) :
    Turn.worker k ∈ enabledTurns s ↔ workerEnabled s k = true := by
  simpa [enabledTurns] using lt_length_of_workerEnabled

theorem enabledTurns_eq_nil_iff (s : State) :
    enabledTurns s = [] ↔
      controllerEnabled s = false ∧ hostEnabled s = false ∧ ∀ k, workerEnabled s k = false := by
  rw [List.eq_nil_iff_forall_not_mem]
  constructor
  · intro h
    exact ⟨by simpa using h .controller, by simpa using h .host, fun k => by simpa using h (.worker k)⟩
  · rintro ⟨hc, hh, hw⟩ a
    cases a with
    | host => simp [hh]
    | controller => simp [hc]
    | worker k => simp [hw]
    | reset => exact reset_not_enabled s

/-! The free choice. -/

theorem drawTurn_mem_enabledTurns {s : State} {a : Turn} (h : drawTurn s = some a) : a ∈ enabledTurns s := by
  unfold drawTurn at h
  split at h
  · cases h
  next t ht => cases h; simp [ht]
  next t more _ ht =>
    have hlt : Config.schedule s.draws % (more.length + 1) < (t :: more).length :=
      Nat.mod_lt _ (Nat.succ_pos _)
    rw [ht, ← Option.some.inj h, List.getD_eq_getElem _ _ hlt]
    exact List.getElem_mem hlt

theorem drawTurn_eq_none_iff (s : State) : drawTurn s = none ↔ enabledTurns s = [] := by
  unfold drawTurn
  split <;> simp [*]

/-- With no turn decided and none to draw, the block waits (60_exceptions.md R162, log 2). -/
theorem step_eq_self_of_drawTurn_none {s : State} (hs : s.turns = []) (hd : drawTurn s = none) :
    step s = .next s := by
  simp [step, hs, hd]

/-! The turns of agents with no step enabled (log 2). -/

theorem workerStep_of_not_enabled {s : State} {k : Nat} (h : workerEnabled s k = false) :
    workerStep k s = .next s := by
  unfold workerStep
  unfold workerEnabled at h
  cases hl : s.lanes[k]? with
  | none => rfl
  | some l =>
    have ha : laneAction s.eng l = none := by simpa [hl] using h
    simp [ha]

theorem controllerStep_of_not_enabled {s : State} (h : controllerEnabled s = false) :
    controllerStep s = .next s := by
  unfold controllerStep
  unfold controllerEnabled at h
  cases he : s.eng with
  | idle => rfl
  | mul => simp [he] at h
  | exp =>
    have hc : allCombined s = false := by simpa [he] using h
    simp [hc]

theorem hostStep_of_not_enabled {s : State} (h : hostEnabled s = false) : hostStep s = .next s := by
  have hline : s.script[s.scriptPos]? = none := by simpa [hostEnabled] using h
  simp [hostStep, hline]

/-! The offsets of the window and its bus addresses (R8, 20_memory.md R50, R52). -/

@[simp] theorem offsetOfAddress_busAddress (off : Int) : offsetOfAddress (busAddress off) = off :=
  add_sub_cancel_left _ _

@[simp] theorem busAddress_offsetOfAddress (addr : Int) : busAddress (offsetOfAddress addr) = addr :=
  add_sub_cancel _ _

/-- R8: BASE is a multiple of 64, so an offset and its bus address agree in every power of two up to 64. -/
theorem busAddress_emod_of_dvd {n : Int} (hn : n ∣ 64) (off : Int) : busAddress off % n = off % n := by
  have hbase : n ∣ (Config.base : Int) := hn.trans ⟨Config.baseBlock, by simp [Config.base]⟩
  rw [busAddress, Int.add_emod, Int.emod_eq_zero_of_dvd hbase, zero_add, Int.emod_emod]

end Sys2Proof.Machine

namespace Sys2Proof.Proofs
open Sys2Proof.Machine

/-- Settles O57: the drawn turn is an element of the list of enabled turns, which is empty exactly when no agent
is enabled. -/
theorem freeChoiceIsOfEnabledAgents : Obligations.FreeChoiceIsOfEnabledAgents := fun s =>
  ⟨fun _ => drawTurn_mem_enabledTurns, (drawTurn_eq_none_iff s).trans (enabledTurns_eq_nil_iff s),
    step_eq_self_of_drawTurn_none⟩

/-- Settles O52: BASE cancels in both conversions and is 0 modulo 8 and modulo 64. -/
theorem offsetsAndAddressesAgree : Obligations.OffsetsAndAddressesAgree := fun off addr =>
  ⟨offsetOfAddress_busAddress off, busAddress_offsetOfAddress addr,
    by rw [busAddress_emod_of_dvd (by decide)], busAddress_emod_of_dvd (dvd_refl 64) 0⟩

/-- Settles O58, agent by agent. -/
theorem disabledTurnsChangeNothing : Obligations.DisabledTurnsChangeNothing := fun _ =>
  ⟨fun _ => workerStep_of_not_enabled, controllerStep_of_not_enabled, hostStep_of_not_enabled⟩

end Sys2Proof.Proofs

/-! SUPPORT. Proofs about the state, first part: what a command and a step do, once for all statements about
steps, and the invariants of STATUS and of eng (10_state.md R22, R23, R32). -/

namespace Sys2Proof.Machine

/-! The code of a decoded word. -/

/-- R70, R72: the command a word decodes to is named by the word's bits [3:0]. -/
theorem code_decodeWord (v : Word) : (decodeWord v).code = v.extractLsb' 0 4 := by
  change (decodeWord v).code = cmdField v
  unfold decodeWord
  generalize cmdField v = c
  obtain ⟨n, hn⟩ := c
  interval_cases n <;> rfl

/-! What CONFIG reads as (10_state.md R25). -/

theorem toNat_append_eq_add {m n : Nat} (x : BitVec m) (y : BitVec n) :
    (x ++ y).toNat = x.toNat * 2 ^ n + y.toNat := by
  rw [BitVec.toNat_append, ← Nat.shiftLeft_add_eq_or_of_lt y.isLt, Nat.shiftLeft_eq]

/-- R142: CONFIG reads as PART above W. -/
theorem ConfigReg.toNat_toWord (c : ConfigReg) : c.toWord.toNat = 256 * c.part.toNat + c.w.toNat := by
  simp only [ConfigReg.toWord, toNat_append_eq_add, BitVec.ofNat_eq_ofNat, BitVec.toNat_ofNat]
  omega

/-- R25: a write of CONFIG keeps the bits [9:0] and no other. -/
theorem ConfigReg.toWord_ofWord (v : Word) : (ConfigReg.ofWord v).toWord = v &&& 0x3FF := by
  apply BitVec.eq_of_toNat_eq
  have hmask : (v &&& 0x3FF).toNat = v.toNat % 1024 := Nat.and_two_pow_sub_one_eq_mod v.toNat 10
  simp only [ConfigReg.toNat_toWord, ConfigReg.ofWord, BitVec.extractLsb'_toNat, Nat.shiftRight_eq_div_pow, hmask]
  omega

/-! What a command does (30_encoding.md R73). -/

/-- What a command that answers a next state did, and which code and which state it takes. -/
inductive Issued (i : Instr) (s : State) : State → Prop
  | overrun (busy : s.status.busy = true) : Issued i s (overrun s)
  | clear (idle : s.status.busy = false) (code : i.code = 0#4) : Issued i s (doClear s)
  | error (idle : s.status.busy = false) (code : i.code ≠ 0#4) (c : ErrorCode) : Issued i s (raiseError c s)
  | modmul (idle : s.status.busy = false) (code : i.code = 1#4) (hm : s.mod ≠ 0#64) : Issued i s (startModmul s)
  | modexp (idle : s.status.busy = false) (code : i.code = 2#4) (legal : s.modexpLegal) :
      Issued i s (startModexp s)

theorem acceptModmul_issued {i : Instr} {s : State} (idle : s.status.busy = false) (code : i.code = 1#4) :
    Issued i s (acceptModmul s) := by
  unfold acceptModmul
  split
  · exact .error idle (by simp [code]) _
  · exact .modmul idle code ‹_›

theorem acceptModexp_issued {i : Instr} {s : State} (idle : s.status.busy = false) (code : i.code = 2#4) :
    Issued i s (acceptModexp s) := by
  have hne : i.code ≠ 0#4 := by simp [code]
  unfold acceptModexp
  split
  · exact .error idle hne _
  split
  · exact .error idle hne _
  split
  · exact .error idle hne _
  next hm hw hc =>
    obtain ⟨hcaps, hpart⟩ := not_or.mp hc
    exact .modexp idle code ⟨hm, hw, BitVec.not_lt.mp hcaps, hpart⟩

theorem issue_issued {i : Instr} {f : State → State} {s t : State} (h : issue f s = .next t)
    (accepts : s.status.busy = false → Issued i s (f s)) : Issued i s t := by
  cases hb : s.status.busy with
  | true => rw [issue_busy f hb] at h; cases h; exact .overrun hb
  | false => rw [issue_idle f hb] at h; cases h; exact accepts hb

theorem exec_issued {i : Instr} {s t : State} (h : exec i s = .next t) : Issued i s t := by
  cases i with
  | clear => exact issue_issued h fun idle => .clear idle rfl
  | modmul => exact issue_issued h fun idle => acceptModmul_issued idle rfl
  | modexp => exact issue_issued h fun idle => acceptModexp_issued idle rfl
  | _ => exact issue_issued h fun idle => .error idle (by simp [Instr.code]) _

/-- What no command changes: the registers but STATUS, and the host's own state. -/
structure CommandFrame (s t : State) : Prop where
  config : t.config = s.config
  caps : t.caps = s.caps
  opa : t.opa = s.opa
  opb : t.opb = s.opb
  mod : t.mod = s.mod
  result : t.result = s.result
  script : t.script = s.script
  scriptPos : t.scriptPos = s.scriptPos
  trace : t.trace = s.trace
  turns : t.turns = s.turns

theorem Issued.frame {i : Instr} {s t : State} (h : Issued i s t) : CommandFrame s t := by
  cases h <;> exact ⟨rfl, rfl, rfl, rfl, rfl, rfl, rfl, rfl, rfl, rfl⟩

theorem CommandFrame.readRegister_eq {s t : State} (h : CommandFrame s t) {r : Reg} (hr : r ≠ .status) :
    readRegister r t = readRegister r s := by
  cases r with
  | status => exact absurd rfl hr
  | ctrl => rfl
  | caps => simp only [readRegister, h.caps]
  | config => simp only [readRegister, h.config]
  | opa => exact h.opa
  | opb => exact h.opb
  | mod => exact h.mod
  | result => exact h.result

theorem CommandFrame.windowByte_eq {s t : State} (h : CommandFrame s t) {off : Nat}
    (hr : registerOfByte off ≠ .status) : windowByte t off = windowByte s off := by
  simp only [windowByte, h.readRegister_eq hr]

/-! What a step does. -/

/-- What a step from `s` did, seen from `u`, which differs from `s` in the host's position, its bus history, the
turns and the draws alone. -/
inductive Effect (s u : State) : State → Prop
  | wait : Effect s u u
  | reset (hr : s.resetNext) : Effect s u (applyReset u)
  | write (r : Reg) (v : Word) : Effect s u (writeRegister r v u)
  | command {t : State} (v : Word) (ht : t.trace = s.trace ++ [.wrote .ctrl v]) (hx : Issued (decodeWord v) u t) :
      Effect s u t
  | mulDone {r : Word} (he : u.eng = .mul) (hr : modmul u.lat.a u.lat.b u.lat.m = some r) :
      Effect s u (((u.setResult r).setStatus u.status.completed).setEng .idle)
  | expDone (he : u.eng = .exp) (hc : allCombined u = true) : Effect s u (completeModexp u)
  | square {k : Nat} {l : Lane} {lb : Word} (hl : u.lanes[k]? = some l) (ha : laneAction u.eng l = some .square)
      (hm : modmul l.lb l.lb u.lat.m = some lb) : Effect s u (u.setLanes (u.lanes.set k (l.squared lb)))
  | absorb {k : Nat} {l : Lane} {lr : Word} (hl : u.lanes[k]? = some l) (ha : laneAction u.eng l = some .absorb)
      (hset : bitOf u.lat.b l.p = true → modmul l.lr l.lb u.lat.m = some lr)
      (hclear : bitOf u.lat.b l.p = false → lr = l.lr) : Effect s u (u.setLanes (u.lanes.set k (l.absorbed lr)))
  | combine {k : Nat} {l : Lane} {acc : Word} (hl : u.lanes[k]? = some l)
      (ha : laneAction u.eng l = some .combine) (hm : modmul u.acc l.lr u.lat.m = some acc) :
      Effect s u ((u.setAcc acc).setLanes (u.lanes.set k l.joined))

/-- Everything a step does to the block. -/
theorem step_effect {s t : State} (h : step s = .next t) : ∃ u, SameBlock s u ∧ Effect s u t := by
  obtain rfl | ⟨hr, rfl⟩ | ⟨u, hu, hm⟩ := step_cases h
  · exact ⟨_, .refl _, .wait⟩
  · exact ⟨s.setTurns s.turns.tail, ⟨rfl, rfl, rfl, rfl, rfl, rfl, rfl, rfl, rfl, rfl, rfl, rfl, rfl⟩, .reset hr⟩
  cases hm with
  | hostOnly hw => exact ⟨_, hu.block.trans hw.block, .wait⟩
  | write r v _ hw => exact ⟨_, hu.block.trans hw.block, .write r v⟩
  | command v hw ht hx =>
    have hi := exec_issued hx
    exact ⟨_, hu.block.trans hw.block, .command v (by rw [hi.frame.trace, ht, hu.trace]) hi⟩
  | mulDone he hr => exact ⟨_, hu.block, .mulDone he hr⟩
  | expDone he hc => exact ⟨_, hu.block, .expDone he hc⟩
  | square hl ha hm => exact ⟨_, hu.block, .square hl ha hm⟩
  | absorb hl ha hset hclear => exact ⟨_, hu.block, .absorb hl ha hset hclear⟩
  | combine hl ha hm => exact ⟨_, hu.block, .combine hl ha hm⟩

/-- What a write of a register that is not CTRL can change: CONFIG and the operands. -/
structure OperandsOnly (s t : State) : Prop where
  status : t.status = s.status
  caps : t.caps = s.caps
  result : t.result = s.result
  lat : t.lat = s.lat
  eng : t.eng = s.eng
  lanes : t.lanes = s.lanes
  acc : t.acc = s.acc
  errlog : t.errlog = s.errlog
  ovrlog : t.ovrlog = s.ovrlog

theorem writeRegister_operandsOnly (r : Reg) (v : Word) (s : State) : OperandsOnly s (writeRegister r v s) := by
  cases r <;> exact ⟨rfl, rfl, rfl, rfl, rfl, rfl, rfl, rfl, rfl⟩

/-! What a step does to STATUS and eng. -/

/-- In this step the host wrote CTRL, with a command code as `cmd` says. -/
def WroteCode (s t : State) (cmd : BitVec 4 → Prop) : Prop :=
  ∃ v, t.trace = s.trace ++ [.wrote .ctrl v] ∧ cmd (v.extractLsb' 0 4)

theorem WroteCode.mono {s t : State} {p q : BitVec 4 → Prop} (h : WroteCode s t p) (hpq : ∀ c, p c → q c) :
    WroteCode s t q := by
  obtain ⟨v, ht, hc⟩ := h
  exact ⟨v, ht, hpq _ hc⟩

/-- The code that a CTRL write has in its bits [3:0] is that of the command it decodes to. -/
theorem wroteCode {v : Word} {s t : State} {cmd : BitVec 4 → Prop} (ht : t.trace = s.trace ++ [.wrote .ctrl v])
    (hc : cmd (decodeWord v).code) : WroteCode s t cmd :=
  ⟨v, ht, code_decodeWord v ▸ hc⟩

/-- The changes of STATUS that R22 names, each with its cause and with what becomes of eng. -/
inductive StatusChange (s t : State) : Prop
  | kept (hst : t.status = s.status) (heng : t.eng = s.eng)
  | reset (hr : s.resetNext) (hst : t.status = State.reset.status) (heng : t.eng = .idle)
  | overran (busy : s.status.busy = true) (hw : WroteCode s t fun _ => True)
      (hst : t.status = s.status.overran) (heng : t.eng = s.eng)
  | cleared (idle : s.status.busy = false) (hw : WroteCode s t fun c => c = 0#4)
      (hst : t.status = s.status.cleared) (heng : t.eng = s.eng)
  | failed (idle : s.status.busy = false) (hw : WroteCode s t fun c => c ≠ 0#4) (c : ErrorCode)
      (hlog : t.errlog = s.errlog ++ [c]) (hst : t.status = s.status.failed c) (heng : t.eng = s.eng)
  | accepted (idle : s.status.busy = false) (hw : WroteCode s t fun c => c = 1#4 ∨ c = 2#4)
      (hst : t.status = s.status.accepted) (heng : t.eng ≠ .idle)
  | completed (busy : s.eng ≠ .idle) (hst : t.status = s.status.completed) (heng : t.eng = .idle)

theorem step_statusChange {s t : State} (h : step s = .next t) : StatusChange s t := by
  obtain ⟨u, hu, he⟩ := step_effect h
  cases he with
  | wait => exact .kept hu.status hu.eng
  | reset hr => exact .reset hr rfl rfl
  | write r v =>
    have hw := writeRegister_operandsOnly r v u
    exact .kept (hw.status.trans hu.status) (hw.eng.trans hu.eng)
  | command v ht hx =>
    cases hx with
    | overrun busy => exact .overran (hu.status ▸ busy) (wroteCode ht trivial) (hu.status ▸ rfl) hu.eng
    | clear idle code => exact .cleared (hu.status ▸ idle) (wroteCode ht code) (hu.status ▸ rfl) hu.eng
    | error idle code c =>
      exact .failed (hu.status ▸ idle) (wroteCode ht code) c (hu.errlog ▸ rfl) (hu.status ▸ rfl) hu.eng
    | modmul idle code =>
      exact .accepted (hu.status ▸ idle) (wroteCode ht (.inl code)) (hu.status ▸ rfl) (by simp [startModmul])
    | modexp idle code =>
      exact .accepted (hu.status ▸ idle) (wroteCode ht (.inr code)) (hu.status ▸ rfl) (by simp [startModexp])
  | mulDone he => exact .completed (by simp [← hu.eng, he]) (hu.status ▸ rfl) rfl
  | expDone he => exact .completed (by simp [← hu.eng, he]) (hu.status ▸ rfl) rfl
  | square => exact .kept hu.status hu.eng
  | absorb => exact .kept hu.status hu.eng
  | combine => exact .kept hu.status hu.eng

/-! The STATUS invariants of R23, change by change. -/

theorem Status.Ok.overran {st : Status} (h : st.Ok) : st.overran.Ok :=
  ⟨h.busyAlone, h.doneNotErr, h.errIffCode, h.knownCode⟩

theorem Status.cleared_ok (st : Status) : st.cleared.Ok := by
  constructor <;> simp [Status.cleared]

theorem Status.accepted_ok (st : Status) : st.accepted.Ok := by
  constructor <;> simp [Status.accepted]

/-- R151: the codes of the four causes are 1 to 4. -/
theorem ErrorCode.code_range (c : ErrorCode) : c.code ≠ 0#4 ∧ c.code.toNat ≤ 4 := by
  cases c <;> decide

theorem Status.failed_ok {st : Status} (idle : st.busy = false) (c : ErrorCode) : (st.failed c).Ok := by
  constructor <;> simp [Status.failed, idle, c.code_range]

/-- A command completes with ERR and ERRCODE 0, because it was busy. -/
theorem Status.Ok.completed {st : Status} (h : st.Ok) (busy : st.busy = true) : st.completed.Ok := by
  obtain ⟨-, herr, hcode⟩ := h.busyAlone busy
  constructor <;> simp [Status.completed, herr, hcode]

theorem reset_status_ok : State.reset.status.Ok := by
  constructor <;> decide

theorem StatusChange.ok {s t : State} (h : StatusChange s t) (hs : s.status.Ok) (he : s.EngineOk) : t.status.Ok := by
  cases h with
  | kept hst => exact hst ▸ hs
  | reset _ hst => exact hst ▸ reset_status_ok
  | overran _ _ hst => exact hst ▸ hs.overran
  | cleared _ _ hst => exact hst ▸ s.status.cleared_ok
  | failed idle _ c _ hst => exact hst ▸ Status.failed_ok idle c
  | accepted _ _ hst => exact hst ▸ s.status.accepted_ok
  | completed busy hst => exact hst ▸ hs.completed (he.mp busy)

/-- R32, change by change: eng and BUSY move together. -/
theorem StatusChange.engineOk {s t : State} (h : StatusChange s t) (he : s.EngineOk) : t.EngineOk := by
  unfold State.EngineOk at *
  cases h with
  | kept hst heng => rwa [hst, heng]
  | reset _ hst heng => simp [hst, heng, State.reset]
  | overran _ _ hst heng => rwa [hst, heng]
  | cleared _ _ hst heng => rwa [hst, heng]
  | failed _ _ _ _ hst heng => rwa [hst, heng]
  | accepted _ _ hst heng => simp [hst, heng, Status.accepted]
  | completed _ hst heng => simp [hst, heng, Status.completed]

theorem State.EngineOk.idle {s : State} (h : s.EngineOk) (idle : s.status.busy = false) : s.eng = .idle := by
  by_contra he
  simp [h.mp he] at idle

end Sys2Proof.Machine

namespace Sys2Proof.Proofs
open Sys2Proof.Machine

/-- Settles O31: each change of STATUS keeps the invariants; completion needs the link to eng, which makes the
block busy and so free of an error. -/
theorem statusInvariantKept : Obligations.StatusInvariantKept := fun _ _ hs he h =>
  (step_statusChange h).ok hs he

/-- Settles O33: each change of STATUS moves BUSY together with eng. -/
theorem engineBusyInvariantKept : Obligations.EngineBusyInvariantKept :=
  ⟨fun _ _ he h => (step_statusChange h).engineOk he, rfl, by unfold State.EngineOk; decide⟩

/-- Settles O32: the changes of STATUS, one by one, with the CTRL write that causes each. -/
theorem statusBitsChangeOnlyWhereNamed : Obligations.StatusBitsChangeOnlyWhereNamed := by
  intro s t _ h hr wrote
  cases step_statusChange h with
  | kept hst => simp +contextual [hst]
  | reset hr' => exact absurd hr' hr
  | overran busy hw hst =>
    have hwrote : wrote fun _ => True := hw
    simp [hst, Status.overran, busy, hwrote]
  | cleared idle hw hst =>
    have hwrote {cmd : BitVec 4 → Prop} (h0 : cmd 0#4) : wrote cmd := hw.mono fun c hc => hc ▸ h0
    simp [hst, Status.cleared, idle, hwrote]
  | failed idle hw c hlog hst =>
    have hwrote {cmd : BitVec 4 → Prop} (hne : ∀ c ≠ 0#4, cmd c) : wrote cmd := hw.mono hne
    simp +contextual [hst, Status.failed, idle, hlog, hwrote, c.code_range]
  | accepted idle hw hst =>
    have hwrote {cmd : BitVec 4 → Prop} (h1 : cmd 1#4) (h2 : cmd 2#4) : wrote cmd :=
      hw.mono fun c hc => hc.elim (· ▸ h1) (· ▸ h2)
    simp +contextual [hst, Status.accepted, idle, hwrote]
  | completed busy hst heng => simp +contextual [hst, Status.completed, busy, heng]

/-- Settles O11: what every command leaves, and what only an accepted command changes, which starts in an idle
block. -/
theorem frameOfCommands : Obligations.FrameOfCommands := by
  intro i s t hok h
  have hi := exec_issued h
  have hf := hi.frame
  refine ⟨hf.config, hf.caps, hf.opa, hf.opb, hf.mod, hf.result, hf.script, hf.scriptPos, hf.trace, hf.turns,
    fun _ _ => hf.windowByte_eq, fun hsame => ?_, fun hstart => ?_⟩
  · cases hi with
    | modmul idle => simp [startModmul, hok.idle idle] at hsame
    | modexp idle => simp [startModexp, hok.idle idle] at hsame
    | _ => exact ⟨rfl, rfl, rfl, rfl⟩
  · cases hi with
    | modmul idle => exact ⟨hok.idle idle, rfl, rfl, fun _ => ⟨rfl, rfl, rfl⟩⟩
    | modexp idle => exact ⟨hok.idle idle, rfl, rfl, fun hmul => by simp [startModexp] at hmul⟩
    | _ => exact absurd rfl hstart

/-- Settles O37: every effect of a step keeps `caps`, the reset input too. -/
theorem capsIsConstant : Obligations.CapsIsConstant := by
  intro s t h
  have hcaps : t.caps = s.caps := by
    obtain ⟨u, hu, he⟩ := step_effect h
    rw [← hu.caps]
    cases he with
    | write r v => exact (writeRegister_operandsOnly r v u).caps
    | command v _ hx => cases hx <;> rfl
    | _ => rfl
  have hlt : s.caps.toNat < 2 ^ 8 := s.caps.isLt
  exact ⟨hcaps, by simp only [readRegister, hcaps, BitVec.toNat_setWidth]; omega, fun _ => rfl⟩

/-- Settles O38: RESULT is written by the two completions and the reset input. -/
theorem resultWrittenOnlyByCompletion : Obligations.ResultWrittenOnlyByCompletion := by
  intro s t h
  obtain ⟨u, hu, he⟩ := step_effect h
  rw [← hu.result, ← hu.eng]
  cases he with
  | reset hr => exact .inr (.inl hr)
  | write r v => exact .inl (writeRegister_operandsOnly r v u).result
  | command v _ hx => exact .inl (by cases hx <;> rfl)
  | mulDone he => exact .inr (.inr ⟨by simp [he], rfl, rfl⟩)
  | expDone he => exact .inr (.inr ⟨by simp [he], rfl, rfl⟩)
  | _ => exact .inl rfl

/-- Settles O39: the latches are written by the two acceptances and the reset input, and an acceptance happens
in an idle block. -/
theorem latchesWrittenOnlyByAcceptance : Obligations.LatchesWrittenOnlyByAcceptance := by
  intro s t hok h
  obtain ⟨u, hu, he⟩ := step_effect h
  have hidle : u.status.busy = false → s.eng = .idle := fun hb => hok.idle (hu.status ▸ hb)
  rw [← hu.lat, ← hu.opa, ← hu.opb, ← hu.mod, ← hu.config]
  cases he with
  | reset hr => exact .inr (.inl hr)
  | write r v => exact .inl (writeRegister_operandsOnly r v u).lat
  | command v _ hx =>
    cases hx with
    | modmul idle => exact .inr (.inr ⟨hidle idle, by simp [startModmul], rfl, rfl, rfl, by simp [startModmul]⟩)
    | modexp idle => exact .inr (.inr ⟨hidle idle, by simp [startModexp], rfl, rfl, rfl, fun _ => ⟨rfl, rfl⟩⟩)
    | _ => exact .inl rfl
  | _ => exact .inl rfl

/-- Settles O41: errlog gets a code in the error entry and ovrlog counts in an overrun. -/
theorem errorHistoryOnlyGrows : Obligations.ErrorHistoryOnlyGrows := by
  intro s t h
  obtain ⟨u, hu, he⟩ := step_effect h
  rw [← hu.errlog, ← hu.ovrlog]
  have same : ∀ {t : State}, t.errlog = u.errlog → t.ovrlog = u.ovrlog →
      u.errlog <+: t.errlog ∧ t.errlog.length ≤ u.errlog.length + 1 ∧
        u.ovrlog ≤ t.ovrlog ∧ t.ovrlog ≤ u.ovrlog + 1 := by
    intro t he ho; simp [he, ho]
  cases he with
  | reset hr => exact .inl ⟨hr, rfl, rfl⟩
  | write r v =>
    have hw := writeRegister_operandsOnly r v u
    exact .inr (same hw.errlog hw.ovrlog)
  | command v _ hx =>
    cases hx with
    | overrun => exact .inr (by simp [overrun])
    | error _ _ c => exact .inr (by simp [raiseError])
    | _ => exact .inr (same rfl rfl)
  | _ => exact .inr (same rfl rfl)

/-- Settles O49: the two fields of CONFIG, put together again, are the ten low bits of what was written. -/
theorem configKeepsTenBits : Obligations.ConfigKeepsTenBits := fun _ v => ConfigReg.toWord_ofWord v

/-- Settles O53: the reset state holds these values, and W_MAX is 255 less a number below 255. -/
theorem resetRegisterValues : Obligations.ResetRegisterValues := by
  have hx := Config.lanesLeftOut.isLt
  have hw : Config.wMax.toNat = 255 - Config.lanesLeftOut.val := by
    simp only [Config.wMax, BitVec.toNat_ofNat]; omega
  exact ⟨rfl, rfl, rfl, rfl, rfl, rfl, rfl, rfl, by omega, by omega⟩

end Sys2Proof.Proofs

/-! SUPPORT. Proofs about the state, second part: the machine's invariant. The partition and the powers that a
MODEXP starts from (41_modexp.md R100 to R104), a step of one lane (R107, R108, 42_reduction.md R131), and the
invariant, effect by effect. -/

namespace Sys2Proof.Machine

/-! A legal MODEXP has 1 to W_MAX workers (60_exceptions.md R152). -/

theorem State.modexpLegal.one_le_workers {s : State} (h : s.modexpLegal) : 1 ≤ s.config.w.toNat := by
  obtain ⟨-, hw, -⟩ := h
  exact Nat.one_le_iff_ne_zero.mpr fun hz => hw (BitVec.eq_of_toNat_eq (by simpa using hz))

theorem State.modexpLegal.workers_le_caps {s : State} (h : s.modexpLegal) : s.config.w.toNat ≤ s.caps.toNat := by
  obtain ⟨-, -, hle, -⟩ := h
  exact BitVec.le_def.mp hle

/-! Every bit index has one owner (R104). -/

/-- The worker whose contiguous block (R102) an index lies in. -/
def contigOwner (w : Nat) (i : BitIndex) : Nat := Nat.findGreatest (fun k => contigStart w k ≤ i.val) w

theorem contigStart_contigOwner_le (w : Nat) (i : BitIndex) : contigStart w (contigOwner w i) ≤ i.val :=
  Nat.findGreatest_spec (P := fun k => contigStart w k ≤ i.val) (Nat.zero_le w) (by simp [contigStart_zero])

theorem contigOwner_lt {w : Nat} (hw : 1 ≤ w) (i : BitIndex) : contigOwner w i < w := by
  refine lt_of_le_of_ne (Nat.findGreatest_le w) fun he => ?_
  have hle := contigStart_contigOwner_le w i
  rw [he, contigStart_end hw] at hle
  omega

/-- The blocks are consecutive, so an index lies in the block that is the last to start at or before it. -/
theorem mem_block_iff {w k : Nat} (hk : k < w) (i : BitIndex) :
    contigStart w k ≤ i.val ∧ i.val < contigStart w k + contigLength w k ↔ contigOwner w i = k := by
  rw [← contigStart_succ]
  constructor
  · rintro ⟨hstart, hend⟩
    have hle : k ≤ contigOwner w i := Nat.le_findGreatest hk.le hstart
    by_contra hne
    have hmono := contigStart_mono w (show k + 1 ≤ contigOwner w i by omega)
    have := contigStart_contigOwner_le w i
    omega
  · rintro rfl
    exact ⟨contigStart_contigOwner_le w i,
      not_le.mp (Nat.findGreatest_is_greatest (P := fun k => contigStart w k ≤ i.val) (Nat.lt_succ_self _) hk)⟩

/-- R104: the sets of a legal command are the fibres of one owner function. -/
theorem exists_owner {s : State} (h : s.modexpLegal) :
    ∃ owner : BitIndex → Nat, (∀ i, owner i < s.config.w.toNat) ∧
      ∀ k < s.config.w.toNat,
        assignedSet (latchModexp s) k = allIndices.filter fun i => decide (owner i = k) := by
  have hpos := h.one_le_workers
  obtain ⟨-, -, -, hpart⟩ := h
  unfold assignedSet
  by_cases h0 : s.config.part = 0#2
  · exact ⟨fun i => i.val % s.config.w.toNat, fun i => Nat.mod_lt _ hpos,
      fun k _ => by simp [latchModexp, h0, stripedSet]⟩
  by_cases h1 : s.config.part = 1#2
  · refine ⟨contigOwner s.config.w.toNat, contigOwner_lt hpos, fun k hk => ?_⟩
    simp [latchModexp, h1, contigSet, ← mem_block_iff hk, Bool.decide_and]
  have h2 : s.config.part = 2#2 := by
    have := s.config.part.isLt
    bv_omega
  exact ⟨fun i => Config.partitionOwner s.draws s.config.w.toNat i % s.config.w.toNat, fun i => Nat.mod_lt _ hpos,
    fun k hk => by simpa [latchModexp, h2] using partitionAny_getD hk⟩

/-! The powers that the bits of the exponent stand for. -/

/-- The factor of lat.a^lat.b that bit i of the exponent gives (R112). -/
def Latches.power (lat : Latches) (i : BitIndex) : Nat :=
  if bitOf lat.b i then lat.a.toNat ^ 2 ^ i.val else 1

theorem sum_testBit_range (x n : Nat) :
    ∑ i ∈ Finset.range n, (if x.testBit i then 2 ^ i else 0) = x % 2 ^ n := by
  induction n with
  | zero => simp [Nat.mod_one]
  | succ n ih =>
    rw [Finset.sum_range_succ, ih, Nat.mod_pow_succ, ← Nat.toNat_testBit]
    cases x.testBit n <;> simp

/-- A 64-bit value is the sum of the powers of two of its bits. -/
theorem sum_bitOf (v : Word) : ∑ i : BitIndex, (if bitOf v i then 2 ^ i.val else 0) = v.toNat := by
  have hrange := Fin.sum_univ_eq_sum_range (fun i => if v.toNat.testBit i then 2 ^ i else 0) 64
  exact hrange.trans ((sum_testBit_range v.toNat 64).trans (Nat.mod_eq_of_lt v.isLt))

/-- The factors of all bits make the power that the command computes. -/
theorem prod_power (lat : Latches) : ∏ i : BitIndex, lat.power i = lat.a.toNat ^ lat.b.toNat := by
  have hpow (i : BitIndex) : lat.power i = lat.a.toNat ^ (if bitOf lat.b i then 2 ^ i.val else 0) := by
    unfold Latches.power
    split <;> simp
  simp only [hpow, Finset.prod_pow_eq_pow_sum, sum_bitOf]

theorem prod_map_filter_eq_ite {α : Type} (p : α → Bool) (f : α → Nat) (l : List α) :
    ((l.filter p).map f).prod = (l.map fun i => if p i then f i else 1).prod := by
  induction l with
  | nil => rfl
  | cons x xs ih => cases hp : p x <;> simp [hp, ih]

theorem pendingPowers_prod (lat : Latches) (l : Lane) : (l.pendingPowers lat).prod = (l.todo.map lat.power).prod :=
  prod_map_filter_eq_ite _ _ _

/-- The factors of the indices of one owner. -/
theorem prod_power_filter (lat : Latches) (owner : BitIndex → Nat) (k : Nat) :
    ((allIndices.filter fun i => decide (owner i = k)).map lat.power).prod =
      ∏ i : BitIndex with owner i = k, lat.power i := by
  rw [prod_map_filter_eq_ite, Finset.prod_filter, Fin.prod_univ_def]
  simp [allIndices]

/-! What a lane owes. -/

theorem owed_of_active {lat : Latches} {l : Lane} (h : l.ph = .run ∨ l.ph = .ready) :
    l.owed lat = l.lr.toNat * (l.todo.map lat.power).prod := by
  rw [← pendingPowers_prod]
  rcases h with h | h <;> simp [Lane.owed, h]

theorem owed_of_passive {lat : Latches} {l : Lane} (h : l.ph = .off ∨ l.ph = .combined) : l.owed lat = 1 := by
  rcases h with h | h <;> simp [Lane.owed, h]

theorem prod_map_set {α : Type} (f : α → Nat) {l : List α} {k : Nat} {x : α} (h : l[k]? = some x) :
    ∃ c, (l.map f).prod = f x * c ∧ ∀ y, ((l.set k y).map f).prod = f y * c := by
  induction l generalizing k with
  | nil => simp at h
  | cons z zs ih =>
    cases k with
    | zero =>
      obtain rfl : z = x := by simpa using h
      exact ⟨(zs.map f).prod, by simp, by simp⟩
    | succ k =>
      obtain ⟨c, hc, hset⟩ := ih (k := k) (by simpa using h)
      refine ⟨f z * c, ?_, fun y => ?_⟩
      · rw [List.map_cons, List.prod_cons, hc, mul_left_comm]
      · rw [List.set_cons_succ, List.map_cons, List.prod_cons, hset, mul_left_comm]

/-! The lanes right after acceptance (R106, R109). -/

theorem minIndex_of_ne_nil {l : List BitIndex} (h : l ≠ []) : ∃ i, minIndex l = some i := by
  cases hm : minIndex l with
  | none => exact absurd (minIndex_eq_none.mp hm) h
  | some i => exact ⟨i, rfl⟩

theorem filter_allIndices_pairwise (p : BitIndex → Bool) : (allIndices.filter p).Pairwise (· < ·) :=
  (List.pairwise_lt_finRange 64).filter p

theorem initLane_of_lt {lat : Latches} {k : Nat} (hk : k < lat.w.toNat) (l : Lane) :
    initLane lat k l =
      { ph := if assignedSet lat k = [] then .ready else .run
        lb := lat.a % lat.m, p := 0, lr := 1#64, todo := assignedSet lat k } := if_pos hk

theorem initLane_of_le {lat : Latches} {k : Nat} (hk : lat.w.toNat ≤ k) (l : Lane) :
    initLane lat k l = { l with ph := .off } := if_neg (not_lt.mpr hk)

theorem Lane.ok_of_off {lat : Latches} {k : Nat} {l : Lane} (hk : lat.w.toNat ≤ k) (h : l.ph = .off) :
    Lane.Ok lat k l := by
  constructor <;> simp [h, hk]

theorem initLane_ok {lat : Latches} {k : Nat} (l : Lane)
    (hsorted : k < lat.w.toNat → (assignedSet lat k).Pairwise (· < ·)) : Lane.Ok lat k (initLane lat k l) := by
  rcases lt_or_ge k lat.w.toNat with hk | hk
  · rw [initLane_of_lt hk]
    by_cases hnil : assignedSet lat k = []
    · constructor <;> simp [hnil, hk]
    · obtain ⟨i, hi⟩ := minIndex_of_ne_nil hnil
      constructor <;> simp [hnil, hk, hi, hsorted]
  · rw [initLane_of_le hk]
    exact Lane.ok_of_off hk rfl

/-- A lane that starts owes the factors of its set, and a lane that is not used owes nothing. -/
theorem owed_initLane {lat : Latches} {k : Nat} (l : Lane) :
    (initLane lat k l).owed lat = if k < lat.w.toNat then ((assignedSet lat k).map lat.power).prod else 1 := by
  split
  next hk =>
    rw [initLane_of_lt hk, owed_of_active (by by_cases h : assignedSet lat k = [] <;> simp [h])]
    simp
  next hk =>
    rw [initLane_of_le (not_lt.mp hk)]
    exact owed_of_passive (.inl rfl)

theorem prod_map_mapIdx_of_index {α β : Type} (f : β → Nat) (g : Nat → α → β) (c : Nat → Nat) (l : List α)
    (h : ∀ k x, f (g k x) = c k) : ((l.mapIdx g).map f).prod = ∏ k ∈ Finset.range l.length, c k := by
  induction l generalizing g c with
  | nil => simp
  | cons x xs ih =>
    rw [List.mapIdx_cons, List.map_cons, List.prod_cons, h, ih _ (fun k => c (k + 1)) (fun k x => h (k + 1) x),
      List.length_cons, Finset.prod_range_succ', mul_comm]

/-- R104, R112: right after acceptance the lanes together owe the whole power. -/
theorem prod_owed_start {s : State} (h : s.modexpLegal) (hlen : s.config.w.toNat ≤ s.lanes.length) :
    ((s.lanes.mapIdx (initLane (latchModexp s))).map (Lane.owed (latchModexp s))).prod =
      s.opa.toNat ^ s.opb.toNat := by
  obtain ⟨owner, hlt, hsets⟩ := exists_owner h
  have howed (k : Nat) (l : Lane) : (initLane (latchModexp s) k l).owed (latchModexp s) =
      ∏ i : BitIndex with owner i = k, (latchModexp s).power i := by
    rw [owed_initLane]
    split
    next hk => rw [hsets k hk, prod_power_filter]
    next hk =>
      have hempty : ∀ i : BitIndex, owner i ≠ k := fun i he => hk (he ▸ hlt i)
      simp [hempty]
  rw [prod_map_mapIdx_of_index _ _ _ _ howed,
    Finset.prod_fiberwise_of_maps_to fun i _ => Finset.mem_range.mpr ((hlt i).trans_le hlen), prod_power]
  rfl

/-! A step of one lane keeps the lane as it has to be. -/

theorem Lane.Ok.squared {lat : Latches} {k : Nat} {l : Lane} {lb : Word} {i : BitIndex} (h : Lane.Ok lat k l)
    (hrun : l.ph = .run) (hmin : minIndex l.todo = some i) (hlt : l.p < i)
    (hlb : modmul l.lb l.lb lat.m = some lb) : Lane.Ok lat k (l.squared lb) where
  unusedOff := h.unusedOff
  runningHasNext _ := ⟨i, hmin, Fin.add_one_le_of_lt hlt⟩
  finishedEmpty := h.finishedEmpty
  increasing := h.increasing
  owned := h.owned
  base _ := by
    obtain ⟨hm, rfl⟩ := modmul_some hlb
    have hp : (l.p + 1).val = l.p.val + 1 := Fin.val_add_one_of_lt' ((Nat.succ_le_of_lt hlt).trans_lt i.isLt)
    simp only [Lane.squared]
    rw [mulReduce_toNat _ _ hm, h.base (.inl hrun), ← Nat.mul_mod, ← pow_add, hp, pow_succ, mul_two]

theorem mem_withoutIndex {todo : List BitIndex} {i j : BitIndex} : j ∈ withoutIndex todo i ↔ j ∈ todo ∧ j ≠ i := by
  simp [withoutIndex]

theorem absorbed_ph {l : Lane} (hrun : l.ph = .run) (lr : Word) :
    (l.absorbed lr).ph = if (l.absorbed lr).todo = [] then .ready else .run := by
  simp [Lane.absorbed, hrun]

theorem Lane.Ok.absorbed {lat : Latches} {k : Nat} {l : Lane} (h : Lane.Ok lat k l) (hrun : l.ph = .run)
    (hmin : minIndex l.todo = some l.p) (lr : Word) : Lane.Ok lat k (l.absorbed lr) where
  unusedOff := by
    rw [← h.unusedOff, absorbed_ph hrun, hrun]
    split <;> simp
  runningHasNext hr := by
    have hne : (l.absorbed lr).todo ≠ [] := by
      intro he
      simp [absorbed_ph hrun, he] at hr
    obtain ⟨i, hi⟩ := minIndex_of_ne_nil hne
    exact ⟨i, hi, (minIndex_least hmin).2 i (mem_withoutIndex.mp (minIndex_least hi).1).1⟩
  finishedEmpty hf := by
    by_contra hne
    simp [absorbed_ph hrun, hne] at hf
  increasing _ := (h.increasing hrun).filter _
  owned _ j hj := h.owned hrun j (mem_withoutIndex.mp hj).1
  base _ := h.base (.inl hrun)

theorem Lane.Ok.joined {lat : Latches} {k : Nat} {l : Lane} (h : Lane.Ok lat k l) (hready : l.ph = .ready) :
    Lane.Ok lat k l.joined := by
  have hused : k < lat.w.toNat := by
    rw [← not_le, ← h.unusedOff, hready]
    decide
  have hempty := h.finishedEmpty (.inl hready)
  constructor <;> simp [Lane.joined, hempty, hused]

/-! A step of one lane keeps the product modulo lat.m (R112). -/

/-- R107: SQUARE leaves the partial product and the indices alone. -/
theorem owed_squared (lat : Latches) (l : Lane) (lb : Word) : (l.squared lb).owed lat = l.owed lat := rfl

/-- The least index is taken out of the indices that are left, once. -/
theorem prod_power_withoutIndex {lat : Latches} {todo : List BitIndex} {i : BitIndex}
    (hsorted : todo.Pairwise (· < ·)) (hi : i ∈ todo) :
    (todo.map lat.power).prod = lat.power i * ((withoutIndex todo i).map lat.power).prod := by
  have hnodup : todo.Nodup := hsorted.imp ne_of_lt
  have herase : withoutIndex todo i = todo.erase i := by
    rw [hnodup.erase_eq_filter]
    exact List.filter_congr fun j _ => by simp [bne, beq_eq_decide]
  rw [herase, List.prod_map_erase lat.power hi]

/-- R108: ABSORB moves the factor of its index from what is pending to the partial product. -/
theorem owed_absorbed {lat : Latches} {k : Nat} {l : Lane} {lr : Word} (h : Lane.Ok lat k l) (hrun : l.ph = .run)
    (hmin : minIndex l.todo = some l.p) (hset : bitOf lat.b l.p = true → modmul l.lr l.lb lat.m = some lr)
    (hclear : bitOf lat.b l.p = false → lr = l.lr) :
    (l.absorbed lr).owed lat ≡ l.owed lat [MOD lat.m.toNat] := by
  have hlr : lr.toNat ≡ l.lr.toNat * lat.power l.p [MOD lat.m.toNat] := by
    cases hb : bitOf lat.b l.p with
    | false => simp [hclear hb, Latches.power, hb, Nat.ModEq.refl]
    | true =>
      obtain ⟨hm, rfl⟩ := modmul_some (hset hb)
      have hlb : l.lb.toNat ≡ lat.power l.p [MOD lat.m.toNat] := by
        simp [h.base (.inl hrun), Latches.power, hb, Nat.mod_modEq]
      rw [mulReduce_toNat _ _ hm]
      exact (Nat.mod_modEq _ _).trans (hlb.mul_left _)
  have hph : (l.absorbed lr).ph = .run ∨ (l.absorbed lr).ph = .ready := by
    rw [absorbed_ph hrun]
    split <;> simp
  rw [owed_of_active hph, owed_of_active (.inl hrun),
    prod_power_withoutIndex (h.increasing hrun) (minIndex_least hmin).1, ← mul_assoc]
  exact hlr.mul_right _

/-- R131: COMBINE moves what a READY lane owes into acc. -/
theorem mul_owed_joined {lat : Latches} {k : Nat} {l : Lane} {acc acc' : Word} (h : Lane.Ok lat k l)
    (hready : l.ph = .ready) (hacc : modmul acc l.lr lat.m = some acc') :
    acc'.toNat * l.joined.owed lat ≡ acc.toNat * l.owed lat [MOD lat.m.toNat] := by
  obtain ⟨hm, rfl⟩ := modmul_some hacc
  rw [owed_of_passive (.inr rfl), owed_of_active (.inr hready), h.finishedEmpty (.inl hready), mulReduce_toNat _ _ hm]
  simp [Nat.mod_modEq]

/-! The invariant, effect by effect. -/

/-- The invariant looks at STATUS, CAPS, the latches, eng, the lanes and acc. -/
theorem State.Inv.of_kept {s t : State} (h : s.Inv) (hst : t.status.Ok) (he : t.EngineOk) (hcaps : t.caps = s.caps)
    (hlat : t.lat = s.lat) (heng : t.eng = s.eng) (hlanes : t.lanes = s.lanes) (hacc : t.acc = s.acc) : t.Inv where
  status := hst
  engine := he
  fitted := by simpa only [State.LanesFitted, hcaps, hlanes] using h.fitted
  latches := ⟨by simpa only [heng, hlat] using h.latches.mulLatched,
    by simpa only [heng, hlat, hcaps] using h.latches.expLatched⟩
  lanes := ⟨by simpa only [heng, hlanes] using h.lanes.offUnlessExp,
    by simpa only [heng, hlanes, hlat] using h.lanes.laneOk⟩
  product := by simpa only [State.ProductOk, heng, hlat, hacc, hlanes] using h.product

theorem SameBlock.inv {s u : State} (h : SameBlock s u) (hs : s.Inv) : u.Inv :=
  hs.of_kept (h.status ▸ hs.status) (by simpa only [State.EngineOk, h.eng, h.status] using hs.engine) h.caps h.lat
    h.eng h.lanes h.acc

/-- With eng IDLE the lanes have to be OFF, and nothing else is asked of latches and acc. -/
theorem State.inv_of_idle {t : State} (hst : t.status.Ok) (he : t.EngineOk) (heng : t.eng = .idle)
    (hfit : t.LanesFitted) (hoff : ∀ l ∈ t.lanes, l.ph = .off) : t.Inv where
  status := hst
  engine := he
  fitted := hfit
  latches := ⟨by simp [heng], by simp [heng]⟩
  lanes := ⟨fun _ => hoff, by simp [heng]⟩
  product := by simp [State.ProductOk, heng]

theorem applyReset_inv {s : State} (h : s.LanesFitted) : (applyReset s).Inv :=
  State.inv_of_idle reset_status_ok (by simp [State.EngineOk, applyReset, State.reset]) rfl
    ⟨h.1, List.length_replicate⟩ fun l hl => by
      obtain rfl := List.eq_of_mem_replicate hl
      rfl

/-- R92: MODMUL starts with the lanes OFF, because the block was idle. -/
theorem startModmul_inv {s : State} (h : s.Inv) (idle : s.status.busy = false) (hm : s.mod ≠ 0#64) :
    (startModmul s).Inv where
  status := s.status.accepted_ok
  engine := by simp [State.EngineOk, startModmul, Status.accepted]
  fitted := h.fitted
  latches := ⟨fun _ => ⟨rfl, hm⟩, by simp [startModmul]⟩
  lanes := ⟨fun _ => h.lanes.offUnlessExp (by simp [h.engine.idle idle]), by simp [startModmul]⟩
  product := by simp [State.ProductOk, startModmul]

theorem startModexp_latchOk {s : State} (legal : s.modexpLegal) : (startModexp s).LatchOk := by
  have hpos := legal.one_le_workers
  have hle := legal.workers_le_caps
  obtain ⟨hm, -, -, hpart⟩ := legal
  exact ⟨by simp [startModexp], fun _ => ⟨rfl, hm, hpos, hle, hpart⟩⟩

/-- R106: each lane starts on its own set of indices, in increasing order. -/
theorem startModexp_lanesOk {s : State} (legal : s.modexpLegal) : (startModexp s).LanesOk := by
  obtain ⟨owner, -, hsets⟩ := exists_owner legal
  refine ⟨fun hne => absurd rfl hne, fun _ k l hl => ?_⟩
  obtain ⟨l₀, -, rfl⟩ : ∃ l₀, s.lanes[k]? = some l₀ ∧ initLane (latchModexp s) k l₀ = l := by
    simpa [startModexp, List.getElem?_mapIdx] using hl
  exact initLane_ok l₀ fun hk => hsets k hk ▸ filter_allIndices_pairwise _

/-- R130: MODEXP starts with acc = 1 mod lat.m and everything else owed by the lanes. -/
theorem startModexp_productOk {s : State} (hfit : s.LanesFitted) (legal : s.modexpLegal) :
    (startModexp s).ProductOk := by
  intro _
  have hacc : (startModexp s).acc.toNat = 1 % s.mod.toNat := by simp [startModexp, latchModexp]
  have howed := prod_owed_start legal (hfit.2 ▸ legal.workers_le_caps)
  obtain ⟨hm, -⟩ := legal
  change _ < s.mod.toNat ∧
    _ * ((s.lanes.mapIdx (initLane (latchModexp s))).map (Lane.owed (latchModexp s))).prod % s.mod.toNat =
      s.opa.toNat ^ s.opb.toNat % s.mod.toNat
  rw [hacc, howed]
  exact ⟨Nat.mod_lt _ (toNat_pos_of_ne_zero hm), by simp⟩

theorem startModexp_inv {s : State} (h : s.Inv) (legal : s.modexpLegal) : (startModexp s).Inv where
  status := s.status.accepted_ok
  engine := by simp [State.EngineOk, startModexp, Status.accepted]
  fitted := by simpa [State.LanesFitted, startModexp] using h.fitted
  latches := startModexp_latchOk legal
  lanes := startModexp_lanesOk legal
  product := startModexp_productOk h.fitted legal

/-- Only the lanes of a running MODEXP are not OFF (R33). -/
theorem State.LanesOk.exp_of_active {s : State} (h : s.LanesOk) {k : Nat} {l : Lane} (hl : s.lanes[k]? = some l)
    (hph : l.ph ≠ .off) : s.eng = .exp := by
  by_contra hne
  exact hph (h.offUnlessExp hne l (List.mem_of_getElem? hl))

/-- A step that changes one lane and acc keeps the invariant, where the new lane is as it has to be and acc times
what it owes stays the same modulo lat.m. -/
theorem State.Inv.setLane {s : State} (h : s.Inv) {k : Nat} {l l' : Lane} {acc : Word} (hexp : s.eng = .exp)
    (hl : s.lanes[k]? = some l) (hok : Lane.Ok s.lat k l') (hlt : acc.toNat < s.lat.m.toNat)
    (howed : acc.toNat * l'.owed s.lat ≡ s.acc.toNat * l.owed s.lat [MOD s.lat.m.toNat]) :
    ((s.setAcc acc).setLanes (s.lanes.set k l')).Inv where
  status := h.status
  engine := h.engine
  fitted := by simpa [State.LanesFitted] using h.fitted
  latches := ⟨h.latches.mulLatched, h.latches.expLatched⟩
  lanes := by
    refine ⟨fun hne => absurd hexp hne, fun _ j x hx => ?_⟩
    by_cases hj : k = j
    · subst hj
      obtain ⟨-, rfl⟩ : k < s.lanes.length ∧ l' = x := by simpa [List.getElem?_set] using hx
      exact hok
    · exact h.lanes.laneOk hexp j x (by simpa [List.getElem?_set, hj] using hx)
  product _ := by
    obtain ⟨-, hprod⟩ := h.product hexp
    obtain ⟨c, hc, hset⟩ := prod_map_set (Lane.owed s.lat) hl
    rw [hc, ← mul_assoc] at hprod
    refine ⟨hlt, ?_⟩
    simp only [State.setLanes_lanes, State.setLanes_acc, State.setAcc_acc, State.setLanes_lat, State.setAcc_lat,
      hset, ← mul_assoc]
    exact (howed.mul_right c).trans hprod

/-- A step of a lane that keeps acc. -/
theorem State.Inv.setLane_keepAcc {s : State} (h : s.Inv) {k : Nat} {l l' : Lane} (hexp : s.eng = .exp)
    (hl : s.lanes[k]? = some l) (hok : Lane.Ok s.lat k l')
    (howed : l'.owed s.lat ≡ l.owed s.lat [MOD s.lat.m.toNat]) : (s.setLanes (s.lanes.set k l')).Inv :=
  h.setLane hexp hl hok (h.product hexp).1 (howed.mul_left _)

/-- Every effect of a step on a sound block leaves it sound; STATUS and eng are settled on their own. -/
theorem Effect.inv {s u t : State} (h : Effect s u t) (hu : u.Inv) (hst : t.status.Ok) (he : t.EngineOk) : t.Inv := by
  cases h with
  | wait => exact hu
  | reset => exact applyReset_inv hu.fitted
  | write r v =>
    have hw := writeRegister_operandsOnly r v u
    exact hu.of_kept hst he hw.caps hw.lat hw.eng hw.lanes hw.acc
  | command v _ hx =>
    cases hx with
    | modmul idle _ hm => exact startModmul_inv hu idle hm
    | modexp _ _ legal => exact startModexp_inv hu legal
    | _ => exact hu.of_kept hst he rfl rfl rfl rfl rfl
  | mulDone heng => exact State.inv_of_idle hst he rfl hu.fitted (hu.lanes.offUnlessExp (by simp [heng]))
  | expDone =>
    exact State.inv_of_idle hst he rfl (by simpa [State.LanesFitted, completeModexp] using hu.fitted)
      (by simp [completeModexp, Lane.released])
  | square hl ha hm =>
    obtain ⟨hrun, i, hmin, hlt⟩ := laneAction_square ha
    have hexp := hu.lanes.exp_of_active hl (by simp [hrun])
    exact hu.setLane_keepAcc hexp hl ((hu.lanes.laneOk hexp _ _ hl).squared hrun hmin hlt hm)
      (by rw [owed_squared])
  | absorb hl ha hset hclear =>
    obtain ⟨hrun, hmin⟩ := laneAction_absorb ha
    have hexp := hu.lanes.exp_of_active hl (by simp [hrun])
    have hok := hu.lanes.laneOk hexp _ _ hl
    exact hu.setLane_keepAcc hexp hl (hok.absorbed hrun hmin _) (owed_absorbed hok hrun hmin hset hclear)
  | combine hl ha hm =>
    obtain ⟨hready, hexp⟩ := laneAction_combine ha
    have hok := hu.lanes.laneOk hexp _ _ hl
    obtain ⟨hne, hacc⟩ := modmul_some hm
    have hlt := hacc ▸ mulReduce_toNat u.acc _ hne ▸ Nat.mod_lt _ (toNat_pos_of_ne_zero hne)
    exact hu.setLane hexp hl (hok.joined hready) hlt (mul_owed_joined hok hready hm)

end Sys2Proof.Machine

namespace Sys2Proof.Proofs
open Sys2Proof.Machine

/-- Settles O34: STATUS and eng by their own invariants, the rest effect by effect. -/
theorem machineInvariantKept : Obligations.MachineInvariantKept := by
  intro s t hs h
  obtain ⟨u, hu, heff⟩ := step_effect h
  exact heff.inv (hu.inv hs) (statusInvariantKept s t hs.status hs.engine h)
    (engineBusyInvariantKept.1 s t hs.engine h)

end Sys2Proof.Proofs

/-! SUPPORT. Proofs about the memory: the bytes of the window, which accesses it admits, and the one stop of the
machine, a refused access (20_memory.md R51 to R55). -/

namespace Sys2Proof.Machine

/-! Byte lanes (R54). -/

/-- Byte j of a register's eight is lane j of what it reads as. -/
theorem windowByte_offset_add (s : State) (r : Reg) {j : Nat} (hj : j < 8) :
    windowByte s (r.offset + j) = byteLane (readRegister r s) j := by
  have hreg : registerOfByte (r.offset + j) = r := by
    cases r <;> interval_cases j <;> rfl
  have hlane : (r.offset + j) % 8 = j := by
    cases r <;> simp only [Reg.offset] <;> omega
  rw [windowByte, hreg, hlane]

/-- The eight lanes of a value, lane 0 first, make the value. -/
@[simp] theorem wordOfLanes_byteLane (v : Word) :
    wordOfLanes (byteLane v 0) (byteLane v 1) (byteLane v 2) (byteLane v 3) (byteLane v 4) (byteLane v 5)
      (byteLane v 6) (byteLane v 7) = v := by
  apply BitVec.eq_of_toNat_eq
  have hv := v.isLt
  simp only [wordOfLanes, byteLane, toNat_append_eq_add, BitVec.extractLsb'_toNat, Nat.shiftRight_eq_div_pow]
  omega

/-! The admission of an access (R51 to R53). -/

theorem AccessWidth.bytes_pos (width : AccessWidth) : 0 < width.bytes := by
  cases width <;> decide

theorem Reg.offset_mod_eight (r : Reg) : r.offset % 8 = 0 := by
  cases r <;> rfl

/-- The registers stand at the multiples of 8 of the window, with no hole (R20). -/
theorem exists_offset_eq {off : Nat} (hoff : off < 64) (h8 : off % 8 = 0) : ∃ r : Reg, r.offset = off := by
  obtain ⟨q, rfl⟩ : 8 ∣ off := Nat.dvd_of_mod_eq_zero h8
  refine ⟨registerOfByte (8 * q), ?_⟩
  have hq : q < 8 := by omega
  interval_cases q <;> rfl

@[simp] theorem registerAt_offset (r : Reg) : registerAt r.offset = some r := by
  cases r <;> rfl

theorem eq_offset_of_registerAt {off : Int} {r : Reg} (h : registerAt off = some r) : off = r.offset := by
  unfold registerAt at h
  split at h <;> cases h <;> rfl

theorem registerAt_eq_none_of_misaligned {off : Nat} (h8 : off % 8 ≠ 0) : registerAt off = none := by
  cases h : registerAt off with
  | none => rfl
  | some r =>
    have hoff : off = r.offset := Int.ofNat_inj.mp (eq_offset_of_registerAt h)
    exact absurd (hoff ▸ r.offset_mod_eight) h8

/-- R53: an access with no byte in the window is not the block's. -/
theorem admission_elsewhere {off : Int} {width : AccessWidth} (h : 64 ≤ off ∨ off + width.bytes ≤ 0) :
    admission off width = .elsewhere := by
  have ht : ¬touchesWindow off width = true := by
    rw [touchesWindow_iff]
    omega
  rw [admission, if_neg ht]

/-- An access that begins at an offset of the window touches it, whatever its width. -/
theorem touchesWindow_of_lt {off : Nat} (hoff : off < 64) (width : AccessWidth) : touchesWindow off width = true := by
  have := width.bytes_pos
  rw [touchesWindow_iff]
  omega

/-- R51: only 64 bits are admitted. -/
theorem admission_wrong_width {off : Nat} (hoff : off < 64) {width : AccessWidth} (hw : width ≠ .w64) :
    admission off width = .refused .width := by
  rw [admission, if_pos (touchesWindow_of_lt hoff width), if_neg hw]

/-- R52: only multiples of 8 are admitted. -/
theorem admission_misaligned {off : Nat} (hoff : off < 64) (h8 : off % 8 ≠ 0) :
    admission off .w64 = .refused .misaligned := by
  rw [admission, if_pos (touchesWindow_of_lt hoff .w64), if_pos rfl, registerAt_eq_none_of_misaligned h8]

theorem admission_offset (r : Reg) : admission r.offset .w64 = .admitted r := by
  have ht : touchesWindow r.offset .w64 = true := by cases r <;> rfl
  rw [admission, if_pos ht, if_pos rfl, registerAt_offset]

/-! What an access does, by its admission (R53, R55, R56). -/

theorem busAccess_of_elsewhere {off : Int} {width : AccessWidth} (h : admission off width = .elsewhere) (v : Word)
    (s : State) : busAccess (.read off width) s = .next s ∧ busAccess (.write off width v) s = .next s := by
  simp only [busAccess, h, and_self]

theorem busAccess_of_refused {off : Int} {width : AccessWidth} {kind : BusFaultKind}
    (h : admission off width = .refused kind) (v : Word) (s : State) :
    busAccess (.read off width) s = .fault (.bus kind) ∧ busAccess (.write off width v) s = .fault (.bus kind) := by
  simp only [busAccess, h, and_self]

theorem busAccess_of_admitted {off : Int} {width : AccessWidth} {r : Reg} (h : admission off width = .admitted r)
    (v : Word) (s : State) :
    busAccess (.read off width) s = busRead r (.reg r) s ∧ busAccess (.write off width v) s = busWrite r v s := by
  simp only [busAccess, h, and_self]

/-! The stops of the machine (R55, 30_encoding.md R75, 40_modmul.md R91). -/

theorem modmul_of_ne_zero {m : Word} (hm : m ≠ 0#64) (a b : Word) : modmul a b m = some (mulReduce a b m) :=
  if_neg hm

theorem squareStep_goes_on {s : State} (hm : s.lat.m ≠ 0#64) (k : Nat) (l : Lane) :
    ∃ t, squareStep k l s = .next t := by
  simp [squareStep, modmul_of_ne_zero hm]

theorem absorbStep_goes_on {s : State} (hm : s.lat.m ≠ 0#64) (k : Nat) (l : Lane) :
    ∃ t, absorbStep k l s = .next t := by
  unfold absorbStep
  split
  · simp [modmul_of_ne_zero hm]
  · exact ⟨_, rfl⟩

theorem combineStep_goes_on {s : State} (hm : s.lat.m ≠ 0#64) (k : Nat) (l : Lane) :
    ∃ t, combineStep k l s = .next t := by
  simp [combineStep, modmul_of_ne_zero hm]

theorem completeModmul_goes_on {s : State} (hm : s.lat.m ≠ 0#64) : ∃ t, completeModmul s = .next t := by
  simp [completeModmul, modmul_of_ne_zero hm]

/-- A lane with a step enabled is not OFF. -/
theorem ph_ne_off_of_laneAction {e : Eng} {l : Lane} {a : WorkerAction} (h : laneAction e l = some a) :
    l.ph ≠ .off := by
  intro hoff
  simp [laneAction, hoff] at h

/-- R91: a worker steps only while a MODEXP runs, whose modulus is not 0. -/
theorem workerStep_goes_on {s : State} (hs : s.Inv) (k : Nat) : ∃ t, workerStep k s = .next t := by
  unfold workerStep
  split
  · exact ⟨s, rfl⟩
  next l hl =>
    have hm {a : WorkerAction} (ha : laneAction s.eng l = some a) : s.lat.m ≠ 0#64 := by
      obtain ⟨-, hm, -⟩ := hs.latches.expLatched (hs.lanes.exp_of_active hl (ph_ne_off_of_laneAction ha))
      exact hm
    split
    next ha => exact squareStep_goes_on (hm ha) k l
    next ha => exact absorbStep_goes_on (hm ha) k l
    next ha => exact combineStep_goes_on (hm ha) k l
    next => exact ⟨s, rfl⟩

/-- R91: a MODMUL completes with the modulus it was accepted with, which is not 0. -/
theorem controllerStep_goes_on {s : State} (hs : s.LatchOk) : ∃ t, controllerStep s = .next t := by
  unfold controllerStep
  split
  next => exact ⟨s, rfl⟩
  next he => exact completeModmul_goes_on (hs.mulLatched he).2
  next => split <;> exact ⟨_, rfl⟩

/-- A script line that is no access goes on in every state. -/
theorem runLine_goes_on {line : ScriptLine} (h : ∀ a, line ≠ .access a) (s : State) :
    ∃ t, runLine line s = .next t := by
  cases line with
  | wr r e => exact busWrite_next r _ s
  | ifGoto c l => exact ⟨_, runLine_ifGoto c l s⟩
  | access a => exact absurd rfl (h a)
  | _ => exact ⟨_, rfl⟩

/-- A step from `s` with this outcome goes on, or ends in the bus fault of the access line the host stands at,
which is refused in every state (R55, log 10). -/
def StopsOnlyRefused (s : State) (outcome : Result) : Prop :=
  (∃ t, outcome = .next t) ∨
  ∃ a kind, s.script[s.scriptPos]? = some (.access a) ∧ outcome = .fault (.bus kind) ∧
    ∀ u : State, busAccess a u = .fault (.bus kind)

theorem hostStep_stopsOnlyRefused (s : State) : StopsOnlyRefused s (hostStep s) := by
  cases hline : s.script[s.scriptPos]? with
  | none => exact .inl ⟨s, by simp only [hostStep, hline]⟩
  | some line =>
    rw [hostStep_line hline]
    by_cases hacc : ∃ a, line = .access a
    · obtain ⟨a, rfl⟩ := hacc
      obtain hnext | ⟨kind, hrefused⟩ := busAccess_next_or_refused a
      · exact .inl (hnext _)
      · exact .inr ⟨a, kind, hline, hrefused _, hrefused⟩
    · exact .inl (runLine_goes_on (not_exists.mp hacc) _)

theorem runTurn_stopsOnlyRefused {s : State} (hs : s.Inv) (a : Turn) : StopsOnlyRefused s (runTurn a s) := by
  cases a with
  | host => exact hostStep_stopsOnlyRefused s
  | controller => exact .inl (controllerStep_goes_on hs.latches)
  | worker k => exact .inl (workerStep_goes_on hs k)
  | reset => exact .inl ⟨applyReset s, rfl⟩

/-- The choice of the turn leaves the host where it stands. -/
theorem Chosen.stopsOnlyRefused {s u : State} (h : Chosen s u) (hs : s.Inv) (a : Turn) :
    StopsOnlyRefused s (runTurn a u) := by
  have hu := runTurn_stopsOnlyRefused (h.block.inv hs) a
  rwa [StopsOnlyRefused, h.script, h.scriptPos] at hu

theorem step_stopsOnlyRefused {s : State} (hs : s.Inv) : StopsOnlyRefused s (step s) := by
  unfold step
  split
  next a rest hturns => exact (Chosen.setTurns hturns).stopsOnlyRefused hs a
  next hturns =>
    split
    next a _ => exact (Chosen.setDraws _ hturns).stopsOnlyRefused hs a
    next => exact .inl ⟨s, rfl⟩

end Sys2Proof.Machine

namespace Sys2Proof.Proofs
open Sys2Proof.Machine

/-- Settles O4: each byte is a lane of its register, and eight lanes make a value. -/
theorem byteLanesAreLittleEndian : Obligations.ByteLanesAreLittleEndian := by
  intro s r
  refine ⟨fun j hj => windowByte_offset_add s r hj, ?_⟩
  have hfirst : windowByte s r.offset = byteLane (readRegister r s) 0 :=
    windowByte_offset_add s r (j := 0) (by decide)
  simp [hfirst, windowByte_offset_add]

/-- Settles O50: the admission of each kind of access, and what an access so admitted or refused does. -/
theorem windowAdmission : Obligations.WindowAdmission := by
  intro s off hoff
  refine ⟨fun width v hw => busAccess_of_refused (admission_wrong_width hoff hw) v s,
    fun v h8 => busAccess_of_refused (admission_misaligned hoff h8) v s, fun v h8 => ?_⟩
  obtain ⟨r, rfl⟩ := exists_offset_eq hoff h8
  exact ⟨r, rfl, busAccess_of_admitted (admission_offset r) v s⟩

/-- Settles O51: such an access is answered as elsewhere. -/
theorem accessesElsewhereChangeNothing : Obligations.AccessesElsewhereChangeNothing :=
  fun s _ _ v h => busAccess_of_elsewhere (admission_elsewhere h) v s

/-- Settles O60, turn by turn: the arithmetic of a sound block has a modulus that is not 0, and of the host's
lines only an access can be refused. -/
theorem onlyRefusedAccessesStop : Obligations.OnlyRefusedAccessesStop := fun _ => step_stopsOnlyRefused

end Sys2Proof.Proofs

/-! SUPPORT. Proofs about the encoding: the two fields of a command word and the rows of the opcode map, the
commands that a host line issues, and the pseudo-instructions as host steps (30_encoding.md R70 to R77). -/

namespace Sys2Proof

/-! The fields of a command word (R70). -/

@[simp] theorem cmdField_encode (i : Instr) : cmdField (encode i) = i.code :=
  (Laws.fields_of_append i.ignored i.code).1

@[simp] theorem ignField_encode (i : Instr) : ignField (encode i) = i.ignored :=
  (Laws.fields_of_append i.ignored i.code).2

theorem ignField_append_cmdField (v : Word) : ignField v ++ cmdField v = v := by
  apply BitVec.eq_of_toNat_eq
  have hv := v.isLt
  simp only [ignField, cmdField, Machine.toNat_append_eq_add, BitVec.extractLsb'_toNat, Nat.shiftRight_eq_div_pow]
  omega

/-- R70: the decoder keeps the ignored bits (log 19). -/
theorem ignored_decodeWord (v : Word) : (decodeWord v).ignored = ignField v := by
  unfold decodeWord
  split <;> rfl

theorem decodeWord_encode (i : Instr) : decodeWord (encode i) = i := by
  rw [decodeWord, cmdField_encode, ignField_encode]
  cases i <;> rfl

theorem encode_decodeWord (v : Word) : encode (decodeWord v) = v := by
  have hcode : (decodeWord v).code = cmdField v := Machine.code_decodeWord v
  rw [encode, ignored_decodeWord, hcode, ignField_append_cmdField]

/-- R54: the byte decoder reads the word whose lanes the bus carries. -/
theorem decodeBytes_lanesOfWord (v : Word) : decodeBytes (lanesOfWord v) = .ok (decodeWord v) :=
  congrArg (Except.ok ∘ decodeWord) (Machine.wordOfLanes_byteLane v)

theorem decodeWord_of_decodeTableWord {nbits w : Nat} {i : Instr} (h : decodeTableWord nbits w = some i) :
    decodeWord (Machine.tableWord nbits w) = i := by
  rw [decodeTableWord, decodeBytes_lanesOfWord] at h
  exact Option.some.inj h

/-! The rows of the opcode map (R72). -/

theorem and_mask_eq_code (v : Word) : v &&& 0xF = (decodeWord v).code.setWidth 64 := by
  apply BitVec.eq_of_toNat_eq
  have hmask : (v &&& 0xF).toNat = v.toNat % 16 := Nat.and_two_pow_sub_one_eq_mod v.toNat 4
  simp only [hmask, Machine.code_decodeWord, BitVec.toNat_setWidth, BitVec.extractLsb'_toNat,
    Nat.shiftRight_eq_div_pow]
  omega

theorem and_mask_eq_iff (v : Word) (c : BitVec 4) : v &&& 0xF = c.setWidth 64 ↔ (decodeWord v).code = c := by
  rw [and_mask_eq_code]
  refine ⟨fun h => ?_, congrArg _⟩
  have hlow := congrArg (BitVec.setWidth 4) h
  simpa using hlow

theorem mask_of_mem_opcodeMap : ∀ row ∈ opcodeMap, row.mask = 0xF := by decide

theorem opcodeMap_filter_pattern :
    ∀ c : BitVec 4, opcodeMap.filter (fun row => c.setWidth 64 == row.pattern) = [⟨0xF, c.setWidth 64⟩] := by
  decide

theorem opcodeMap_filter_takes (v : Word) :
    opcodeMap.filter (fun row => row.takes v) = [⟨0xF, (decodeWord v).code.setWidth 64⟩] := by
  rw [← opcodeMap_filter_pattern]
  refine List.filter_congr fun row hrow => ?_
  rw [OpcodeRow.takes, mask_of_mem_opcodeMap row hrow, and_mask_eq_code]

theorem code_eq_zero_iff (i : Instr) : i.code = 0 ↔ ∃ g, i = .clear g := by
  cases i <;> simp [Instr.code]

theorem code_eq_one_iff (i : Instr) : i.code = 1 ↔ ∃ g, i = .modmul g := by
  cases i <;> simp [Instr.code]

theorem code_eq_two_iff (i : Instr) : i.code = 2 ↔ ∃ g, i = .modexp g := by
  cases i <;> simp [Instr.code]

end Sys2Proof

namespace Sys2Proof.Machine

/-! A step of the host at a line of its script (R73, R75). -/

theorem step_host_line {s : State} {rest : List Turn} {line : ScriptLine} (ht : s.turns = .host :: rest)
    (hl : s.script[s.scriptPos]? = some line) :
    step s = runLine line { s with turns := rest, scriptPos := s.scriptPos + 1 } := by
  rw [step_eq_of_turns ht]
  exact hostStep_line (s := s.setTurns rest) hl

/-- Where the host alone is enabled, the free schedule picks it (R13). -/
theorem step_only_host_line {s : State} {line : ScriptLine} (ht : s.turns = []) (he : enabledTurns s = [.host])
    (hl : s.script[s.scriptPos]? = some line) :
    step s = runLine line { s with draws := s.draws + 1, scriptPos := s.scriptPos + 1 } := by
  have hdraw : drawTurn s = some .host := by simp only [drawTurn, he]
  have hturn : step s = hostStep (s.setDraws (s.draws + 1)) := by
    simp only [step, ht, hdraw, runTurn]
  exact hturn.trans (hostStep_line hl)

/-- A line that writes a constant (R75). -/
theorem runLine_wr_num {n : Nat} (hn : n < 2 ^ 64) (r : Reg) (s : State) :
    runLine (.wr r (.num n)) s = busWrite r (BitVec.ofNat 64 n) s := by
  rw [runLine, writtenValue_num hn]

/-- R73: a CTRL write is logged and issues the command its value decodes to. -/
theorem runLine_wr_ctrl (e : Expr) (s : State) :
    runLine (.wr .ctrl e) s = exec (decodeWord (writtenValue s.trace e))
      { s with trace := s.trace ++ [.wrote .ctrl (writtenValue s.trace e)] } := rfl

/-! A pass of the polling loop (R76). -/

/-- The loop's label is found where no line before the loop declares it. -/
theorem labelPosition_append_label {l : Nat} {before : List ScriptLine} (h : ScriptLine.label l ∉ before)
    (after : List ScriptLine) : labelPosition l (before ++ .label l :: after) = some before.length := by
  induction before with
  | nil => simp [labelPosition]
  | cons line rest ih =>
    have hne : line ≠ .label l := fun heq => h (by simp [heq])
    have hrest : ScriptLine.label l ∉ rest := fun hmem => h (List.mem_cons_of_mem _ hmem)
    simp [labelPosition, hne, ih hrest]

/-- BUSY is bit 0 of STATUS (10_state.md R22). -/
theorem Status.toNat_toWord_mod_two (st : Status) : st.toWord.toNat % 2 = st.busy.toNat := by
  have hbusy : st.busy.toNat < 2 := st.busy.toNat_lt
  simp only [Status.toWord, toNat_append_eq_add, BitVec.toNat_ofBool]
  omega

/-- The condition `s[0] = 1` on the STATUS just read is BUSY = 1. -/
theorem stillBusy_eval_append_read (bound : List BusEvent) (st : Status) :
    stillBusy.eval (bound ++ [.read .status st.toWord ScriptName.s]) = st.busy := by
  have hname := nameValue_of_bound (boundValue_append_read bound .status st.toWord ScriptName.s)
  have hbit : ((st.toWord.toNat : Int) % 2 = 1) ↔ st.busy = true := by
    rw [← Bool.toNat_eq_one, ← st.toNat_toWord_mod_two]
    omega
  simp [stillBusy, Cond.eval, Expr.eval, hname, sliceValue, hbit]

end Sys2Proof.Machine

namespace Sys2Proof.Proofs
open Sys2Proof.Machine

/-- Settles O2: the encoded word holds the command's two fields, and a word is its two fields. -/
theorem decodeEncodeAgree : Obligations.DecodeEncodeAgree := by
  refine ⟨fun i _ => ⟨decodeWord_encode i, ?_⟩, encode_decodeWord⟩
  rw [decodeBytes_lanesOfWord, decodeWord_encode]

/-- Settles O3: every row masks the code out of the word, and the rows are the sixteen codes. -/
theorem everyWordHasExactlyOneRow : Obligations.EveryWordHasExactlyOneRow := fun v =>
  ⟨opcodeMap_filter_takes v,
    (and_mask_eq_iff v 0).trans (code_eq_zero_iff _),
    (and_mask_eq_iff v 1).trans (code_eq_one_iff _),
    (and_mask_eq_iff v 2).trans (code_eq_two_iff _),
    code_decodeWord v⟩

/-- Settles O56, line by line of the loop: the label, the read of STATUS, the branch on what was read. -/
theorem waitPollsUntilIdle : Obligations.WaitPollsUntilIdle := by
  intro s before after fresh rest hscript hlabel hpos hturns
  have hloop : s.script = before ++ .label fresh :: .rdAs .status .s :: .ifGoto stillBusy fresh :: after := by
    simp [hscript, Pseudo.expand, waitLines]
  have hposition : labelPosition fresh s.script = some before.length := by
    rw [hloop, labelPosition_append_label hlabel]
  have htarget := branchTarget_of_position hposition
  rw [run_succ 2 (step_host_line hturns (line := .label fresh) (by simp [hloop, hpos])),
    run_succ 1 (step_host_line rfl (line := .rdAs .status .s) (by simp [hloop, hpos])),
    run_succ 0 ((step_host_line rfl (line := .ifGoto stillBusy fresh)
      (by simp [hloop, hpos, State.setTrace, Nat.add_assoc])).trans (runLine_ifGoto _ _ _)), run_zero]
  simp only [State.setTrace, State.setScriptPos, readRegister, stillBusy_eval_append_read, htarget, hpos]
  split <;> rfl

/-- Settles O1: each word is the encoding of its command. -/
theorem writtenWordsDecode : Obligations.WrittenWordsDecode := by
  exact ⟨decodeWord_encode (.clear 0), decodeWord_encode (.clear 1), decodeWord_encode (.modmul (BitVec.allOnes 60)),
    decodeWord_encode (.modexp 0), decodeWord_encode (.reserved3 0), decodeWord_encode (.reserved7 3),
    decodeWord_encode (.reservedF 0)⟩

/-- Settles O12: the host's line is a CTRL write, and that is the issue of the decoded command. -/
theorem stepRunsDecodedCommand : Obligations.StepRunsDecodedCommand := by
  rintro s e v i hline rfl rfl -
  exact ⟨fun rest hturns => (step_host_line hturns hline).trans (runLine_wr_ctrl e _),
    fun hturns honly => (step_only_host_line hturns honly hline).trans (runLine_wr_ctrl e _)⟩

/-- Settles O13: the placed line is the host's next, and its turn is the next turn. -/
theorem placedWordRunsNext : Obligations.PlacedWordRunsNext := by
  intro s nbits w i hdecode
  have hline : (s.withFetchWord nbits w).script[(s.withFetchWord nbits w).scriptPos]? =
      some (.wr .ctrl (.num (tableWord nbits w).toNat)) := by
    simp [State.withFetchWord]
  have hvalue : writtenValue s.trace (.num (tableWord nbits w).toNat) = tableWord nbits w := by
    rw [writtenValue_num (tableWord nbits w).isLt, BitVec.ofNat_toNat, BitVec.setWidth_eq]
  rw [step_host_line rfl hline, runLine_wr_ctrl, ← decodeWord_of_decodeTableWord hdecode]
  simp only [State.withFetchWord, hvalue]
  rfl

/-- Settles O59: each one-line expansion writes a constant below 2^64. -/
theorem pseudoInstructionsExpand : Obligations.PseudoInstructionsExpand := by
  refine ⟨fun s w part => ⟨?_, ?_, ?_, ?_⟩, fun a b m fresh => ⟨rfl, rfl⟩, by decide, by decide⟩
  · exact ⟨_, rfl, runLine_wr_num (by decide) .ctrl s⟩
  · exact ⟨_, rfl, runLine_wr_num (by decide) .ctrl s⟩
  · exact ⟨_, rfl, runLine_wr_num (by decide) .ctrl s⟩
  · have hconfig : 256 * part.toNat + w.toNat < 2 ^ 64 := by omega
    exact ⟨_, _, rfl, by rw [BitVec.toNat_ofNat, Nat.mod_eq_of_lt hconfig], runLine_wr_num hconfig .config s⟩

end Sys2Proof.Proofs

/-! SUPPORT. Proofs about MODMUL: the laws of the multiplier, the acceptance and the completion of the command, and
a command in flight over a run of steps (40_modmul.md R90 to R95; 10_state.md R31). -/

namespace Sys2Proof.Machine

/-! The multiplier (R90, R95). -/

/-- The value of `modmul`, as a number. -/
theorem modmul_eq_some_iff {m : Word} (hm : m ≠ 0#64) (a b r : Word) :
    modmul a b m = some r ↔ r.toNat = a.toNat * b.toNat % m.toNat := by
  rw [modmul_of_ne_zero hm, Option.some_inj, ← BitVec.toNat_inj, mulReduce_toNat a b hm, eq_comm]

/-- Only the product modulo m matters. -/
theorem modmul_congr {a b a' b' m : Word} (hm : m ≠ 0#64)
    (h : a.toNat * b.toNat ≡ a'.toNat * b'.toNat [MOD m.toNat]) : modmul a b m = modmul a' b' m := by
  rw [modmul_of_ne_zero hm a' b', modmul_eq_some_iff hm, mulReduce_toNat a' b' hm]
  exact h.symm

/-- A product of three reduced in the middle is the reduced product of three. -/
theorem mulReduce_mulReduce_toNat {m : Word} (hm : m ≠ 0#64) (a b c : Word) :
    (mulReduce (mulReduce a b m) c m).toNat = a.toNat * b.toNat * c.toNat % m.toNat := by
  rw [mulReduce_toNat _ _ hm, mulReduce_toNat _ _ hm, Nat.mod_mul_mod]

theorem modmul_comm (a b m : Word) : modmul a b m = modmul b a m := by
  simp only [modmul, mulReduce, BitVec.mul_comm]

/-! Acceptance and completion (R92, R93). -/

theorem exec_modmul_of_idle {s : State} (idle : s.status.busy = false) (hm : s.mod ≠ 0#64) (ign : BitVec 60) :
    exec (.modmul ign) s = .next (startModmul s) := by
  have haccept : acceptModmul s = startModmul s := if_neg hm
  exact (issue_idle acceptModmul idle).trans (congrArg _ haccept)

theorem completeModmul_of_ne_zero {s : State} (hm : s.lat.m ≠ 0#64) :
    completeModmul s =
      .next (((s.setResult (mulReduce s.lat.a s.lat.b s.lat.m)).setStatus s.status.completed).setEng .idle) := by
  simp only [completeModmul, modmul_of_ne_zero hm]

theorem runTurn_controller_of_mul {s : State} (h : s.eng = .mul) : runTurn .controller s = completeModmul s := by
  simp only [runTurn, controllerStep, h]

/-- Without reset, a MODMUL ends in its completion, and in no other way. -/
theorem step_ends_mul {s t : State} (h : step s = .next t) (hmul : s.eng = .mul) (hr : ¬s.resetNext)
    (hend : t.eng = .idle) :
    modmul s.lat.a s.lat.b s.lat.m = some t.result ∧ t.status = s.status.completed := by
  obtain ⟨u, hu, he⟩ := step_effect h
  have humul : u.eng ≠ .idle := by simp [hu.eng, hmul]
  rw [← hu.lat, ← hu.status]
  cases he with
  | reset hreset => exact absurd hreset hr
  | mulDone _ hres => exact ⟨hres, rfl⟩
  | expDone hexp => simp [hu.eng, hmul] at hexp
  | write r v => exact absurd ((writeRegister_operandsOnly r v u).eng ▸ hend) humul
  | command v _ hx =>
    cases hx with
    | modmul => cases hend
    | modexp => cases hend
    | _ => exact absurd hend humul
  | _ => exact absurd hend humul

/-! The turns decided (log 1): a step takes the first of them and adds none. -/

@[simp] theorem writeRegister_turns (r : Reg) (v : Word) (s : State) : (writeRegister r v s).turns = s.turns := by
  cases r <;> rfl

theorem Move.turns {s t : State} (h : Move s t) : t.turns = s.turns := by
  cases h with
  | hostOnly hw => exact hw.turns
  | write r v _ hw => exact (writeRegister_turns r v _).trans hw.turns
  | command v hw _ hx => exact (exec_issued hx).frame.turns.trans hw.turns
  | _ => rfl

theorem step_turns_subset {s t : State} (h : step s = .next t) : t.turns ⊆ s.turns := by
  obtain rfl | ⟨-, rfl⟩ | ⟨u, hu, hm⟩ := step_cases h
  · exact List.Subset.refl _
  · exact List.tail_subset _
  · rw [hm.turns, hu.turns]
    exact List.tail_subset _

theorem not_resetNext_of_not_mem {s : State} (h : Turn.reset ∉ s.turns) : ¬s.resetNext :=
  fun hr => h (List.mem_of_head? hr)

/-! A command in flight. -/

/-- A sound machine in which the controller is in `e` with the latches `lat`, and no reset is decided. -/
structure Running (e : Eng) (lat : Latches) (s : State) : Prop where
  inv : s.Inv
  eng : s.eng = e
  lat : s.lat = lat
  noReset : Turn.reset ∉ s.turns

theorem Running.of_step {e : Eng} {lat : Latches} {s t : State} (h : Running e lat s) (busy : e ≠ .idle)
    (hs : step s = .next t) (ht : t.eng = e) : Running e lat t where
  inv := Proofs.machineInvariantKept s t h.inv hs
  eng := ht
  lat := by
    obtain hlat | hr | ⟨idle, -⟩ := Proofs.latchesWrittenOnlyByAcceptance s t h.inv.engine hs
    · exact hlat.trans h.lat
    · exact absurd hr (not_resetNext_of_not_mem h.noReset)
    · exact absurd (h.eng.symm.trans idle) busy
  noReset hmem := h.noReset (step_turns_subset hs hmem)

/-- What is in flight for n + 1 steps is in flight after the first and for n from there. -/
theorem InFlightFor.of_step {n : Nat} {s t : State} (h : InFlightFor (n + 1) s) (hs : step s = .next t) :
    t.eng = s.eng ∧ InFlightFor n t := by
  have hafter (j : Nat) (hj : j ≤ n) : ∃ u, Sys2Proof.core.run j t = .next u ∧ u.eng = s.eng := by
    obtain ⟨u, hu, heng⟩ := h (j + 1) (Nat.succ_le_succ hj)
    exact ⟨u, (run_succ j hs).symm.trans hu, heng⟩
  have heng : t.eng = s.eng := by
    obtain ⟨u, hu, heng⟩ := hafter 0 n.zero_le
    cases hu
    exact heng
  exact ⟨heng, by simpa only [InFlightFor, heng] using hafter⟩

/-- R31: over a run that keeps it in flight, a command keeps its latches. -/
theorem Running.of_run {e : Eng} {lat : Latches} (busy : e ≠ .idle) {n : Nat} {s u : State} (h : Running e lat s)
    (hf : InFlightFor n s) (hrun : Sys2Proof.core.run n s = .next u) : Running e lat u := by
  induction n generalizing s with
  | zero => cases hrun; exact h
  | succ n ih =>
    obtain ⟨t, hs, ht⟩ := run_succ_next hrun
    obtain ⟨heng, hft⟩ := hf.of_step hs
    exact ih (h.of_step busy hs (heng.trans h.eng)) hft ht

theorem startModmul_running {s : State} (h : s.Inv) (idle : s.status.busy = false) (hm : s.mod ≠ 0#64)
    (hr : Turn.reset ∉ s.turns) : Running .mul (latchModmul s) (startModmul s) :=
  ⟨startModmul_inv h idle hm, rfl, rfl, hr⟩

end Sys2Proof.Machine

namespace Sys2Proof.Proofs
open Sys2Proof.Machine

/-- Settles O29: the latches stand until the completion, which multiplies them. -/
theorem modmulGivesProduct : Obligations.ModmulGivesProduct := by
  intro ign s t u v n hinv idle hm hr hexec hf hrun hstep hend
  obtain rfl : startModmul s = t := Host.Outcome.next.inj ((exec_modmul_of_idle idle hm ign).symm.trans hexec)
  have hu : Running .mul (latchModmul s) u := (startModmul_running hinv idle hm hr).of_run (by decide) hf hrun
  obtain ⟨hres, hst⟩ := step_ends_mul hstep hu.eng (not_resetNext_of_not_mem hu.noReset) hend
  rw [hu.lat] at hres
  exact ⟨(modmul_eq_some_iff hm s.opa s.opb _).mp hres, by rw [hst]; rfl, by rw [hst]; rfl⟩

/-- Settles O14: the 128 bits hold the product, so its remainder is exact. -/
theorem modmulIsExact : Obligations.ModmulIsExact := fun a b _ hm =>
  ⟨BitVec.toNat_mul_toNat_lt, _, modmul_of_ne_zero hm a b, mulReduce_toNat a b hm⟩

/-- Settles O15: each law is one of the product modulo m. -/
theorem modmulLaws : Obligations.ModmulLaws := by
  intro a b c m hm
  refine ⟨?range, modmul_comm a b m, ?reduced, ?assoc, ?one, ?oneMod, ?zero, ?modulusOne⟩
  case range =>
    refine ⟨_, modmul_of_ne_zero hm a b, ?_⟩
    rw [mulReduce_toNat a b hm]
    exact Nat.mod_lt _ (toNat_pos_of_ne_zero hm)
  case reduced =>
    apply modmul_congr hm
    simp only [BitVec.toNat_umod]
    exact ((Nat.mod_modEq _ _).mul (Nat.mod_modEq _ _)).symm
  case assoc =>
    refine ⟨_, _, _, modmul_of_ne_zero hm a b, modmul_of_ne_zero hm b c, modmul_of_ne_zero hm _ c, ?_,
      mulReduce_mulReduce_toNat hm a b c⟩
    rw [modmul_comm, modmul_eq_some_iff hm, mulReduce_mulReduce_toNat hm, mulReduce_toNat b c hm, Nat.mod_mul_mod]
    congr 1
    ring
  case one => rw [modmul_eq_some_iff hm]; simp
  case oneMod => rw [modmul_eq_some_iff hm]; simp
  case zero => rw [modmul_eq_some_iff hm]; simp
  case modulusOne => rw [modmul_eq_some_iff (by decide)]; simp [Nat.mod_one]

/-- Settles O36: a sound machine stops in a bus fault alone. -/
theorem noStepMultipliesModuloZero : Obligations.NoStepMultipliesModuloZero := by
  refine ⟨modmul_zero, fun s hs hfault => ?_⟩
  obtain ⟨t, hnext⟩ | ⟨a, kind, -, hbus, -⟩ := step_stopsOnlyRefused hs
  · cases hnext.symm.trans hfault
  · cases hbus.symm.trans hfault

/-- Settles O8: an idle block issues the command, and its check of MOD passes. -/
theorem modmulIsAccepted : Obligations.ModmulIsAccepted := fun ign _ idle hm => exec_modmul_of_idle idle hm ign

/-- Settles O16: the controller's turn is the completion, whose product exists. -/
theorem modmulCompletion : Obligations.ModmulCompletion := fun s hmul hm =>
  ⟨mulReduce s.lat.a s.lat.b s.lat.m, mulReduce_toNat _ _ hm,
    (runTurn_controller_of_mul hmul).trans (completeModmul_of_ne_zero hm)⟩

end Sys2Proof.Proofs

/-! SUPPORT. Proofs about MODEXP: the value of the reference, the sets of the partitions, the steps of a worker, the
acceptance and the completion of the command, and the steps it has left (41_modexp.md R100 to R114). -/

namespace Sys2Proof.Machine

/-! The reference (R100). -/

theorem refLoop_cons {m : Word} (hm : m ≠ 0#64) (e : Word) (i : BitIndex) (rest : List BitIndex) (r sq : Word) :
    refLoop e m (i :: rest) r sq =
      refLoop e m rest (if bitOf e i then mulReduce r sq m else r) (mulReduce sq sq m) := by
  cases hb : bitOf e i <;> simp [refLoop, hb, modmul_of_ne_zero hm]

/-- A pass of the loop multiplies the factor of its index in, where the running square is the index's power. -/
theorem refLoop_factor {lat : Latches} (hm : lat.m ≠ 0#64) {i : BitIndex} {r sq : Word}
    (hsq : sq.toNat ≡ lat.a.toNat ^ 2 ^ i.val [MOD lat.m.toNat]) :
    (if bitOf lat.b i then mulReduce r sq lat.m else r).toNat ≡ r.toNat * lat.power i [MOD lat.m.toNat] := by
  unfold Latches.power
  split
  · rw [mulReduce_toNat _ _ hm]
    exact (Nat.mod_modEq _ _).trans (hsq.mul_left _)
  · rw [mul_one]

/-- The square of the power of one index is the power of the next. -/
theorem mulReduce_self_modEq {m : Word} (hm : m ≠ 0#64) {sq : Word} {x n : Nat}
    (hsq : sq.toNat ≡ x ^ 2 ^ n [MOD m.toNat]) : (mulReduce sq sq m).toNat ≡ x ^ 2 ^ (n + 1) [MOD m.toNat] := by
  rw [mulReduce_toNat _ _ hm, pow_succ, mul_two, pow_add]
  exact (Nat.mod_modEq _ _).trans (hsq.mul hsq)

/-- The loop over consecutive indices multiplies their factors into `r`. -/
theorem refLoop_consecutive {lat : Latches} (hm : lat.m ≠ 0#64) {l : List BitIndex} {n : Nat} {r sq : Word}
    (hl : l.map Fin.val = List.range' n l.length) (hr : r.toNat < lat.m.toNat)
    (hsq : sq.toNat ≡ lat.a.toNat ^ 2 ^ n [MOD lat.m.toNat]) :
    ∃ v, refLoop lat.b lat.m l r sq = some v ∧ v.toNat < lat.m.toNat ∧
      v.toNat ≡ r.toNat * (l.map lat.power).prod [MOD lat.m.toNat] := by
  induction l generalizing n r sq with
  | nil => exact ⟨r, rfl, hr, by simp [Nat.ModEq.refl]⟩
  | cons i rest ih =>
    obtain ⟨rfl, hrest⟩ : i.val = n ∧ rest.map Fin.val = List.range' (n + 1) rest.length := by
      simpa [List.range'_succ] using hl
    have hlt : (if bitOf lat.b i then mulReduce r sq lat.m else r).toNat < lat.m.toNat := by
      split
      · rw [mulReduce_toNat _ _ hm]
        exact Nat.mod_lt _ (toNat_pos_of_ne_zero hm)
      · exact hr
    obtain ⟨v, hv, hvlt, hvmod⟩ := ih hrest hlt (mulReduce_self_modEq hm hsq)
    refine ⟨v, (refLoop_cons hm ..).trans hv, hvlt, hvmod.trans ?_⟩
    rw [List.map_cons, List.prod_cons, ← mul_assoc]
    exact (refLoop_factor hm hsq).mul_right _

theorem prod_map_power_allIndices (lat : Latches) :
    (allIndices.map lat.power).prod = lat.a.toNat ^ lat.b.toNat := by
  rw [← prod_power, Fin.prod_univ_def]
  rfl

/-- R100: the reference is the power modulo m. -/
theorem refModexp_eq_power {x e m : Word} (hm : m ≠ 0#64) :
    ∃ r, refModexp x e m = some r ∧ r.toNat = x.toNat ^ e.toNat % m.toNat := by
  let lat : Latches := { Latches.atReset with a := x, b := e, m := m }
  have hr : (1#64 % m).toNat < m.toNat := Nat.mod_lt _ (toNat_pos_of_ne_zero hm)
  have hsq : (x % m).toNat ≡ x.toNat ^ 2 ^ 0 [MOD m.toNat] := by simp [Nat.mod_modEq]
  have hl : allIndices.map Fin.val = List.range' 0 allIndices.length := by
    simp [allIndices, List.range_eq_range']
  obtain ⟨v, hv, hlt, hmod⟩ := refLoop_consecutive (lat := lat) hm hl hr hsq
  rw [prod_map_power_allIndices] at hmod
  refine ⟨v, (if_neg hm).trans hv, ?_⟩
  rw [← Nat.mod_eq_of_lt hlt, hmod]
  simp [lat]

/-! The sets of the partitions (R101, R102). -/

@[simp] theorem mem_stripedSet {w k : Nat} {i : BitIndex} : i ∈ stripedSet w k ↔ i.val % w = k := by
  simp [stripedSet, allIndices]

@[simp] theorem mem_contigSet {w k : Nat} {i : BitIndex} :
    i ∈ contigSet w k ↔ contigStart w k ≤ i.val ∧ i.val < contigStart w k + contigLength w k := by
  simp [contigSet, allIndices]

theorem contigStart_of_lt {w k : Nat} (hk : k < 64 % w) : contigStart w k = k * (64 / w + 1) := if_pos hk

theorem contigStart_of_le {w k : Nat} (hk : 64 % w ≤ k) :
    contigStart w k = 64 % w * (64 / w + 1) + (k - 64 % w) * (64 / w) := if_neg (not_lt.mpr hk)

theorem contigLength_of_lt {w k : Nat} (hk : k < 64 % w) : contigLength w k = 64 / w + 1 := if_pos hk

theorem contigLength_of_le {w k : Nat} (hk : 64 % w ≤ k) : contigLength w k = 64 / w := if_neg (not_lt.mpr hk)

/-- With more workers than indices, a block is the index of its worker's number, where there is one. -/
theorem mem_contigSet_of_many {w k : Nat} (hw : 64 < w) {i : BitIndex} : i ∈ contigSet w k ↔ i.val = k := by
  have hi := i.isLt
  have hq : 64 / w = 0 := Nat.div_eq_of_lt hw
  have hr : 64 % w = 64 := Nat.mod_eq_of_lt hw
  rw [mem_contigSet]
  rcases lt_or_ge k (64 % w) with hk | hk
  · rw [contigStart_of_lt hk, contigLength_of_lt hk, hq]
    omega
  · rw [contigStart_of_le hk, contigLength_of_le hk, hq, hr]
    omega

theorem contigSet_eq_singleton {w : Nat} (hw : 64 < w) (i : BitIndex) : contigSet w i.val = [i] := by
  have hsorted : (contigSet w i.val).Pairwise (· < ·) := filter_allIndices_pairwise _
  have hperm : (contigSet w i.val).Perm [i] := by
    rw [List.perm_ext_iff_of_nodup (hsorted.imp ne_of_lt) (List.nodup_singleton i)]
    intro j
    rw [mem_contigSet_of_many hw, List.mem_singleton, Fin.val_inj]
  exact List.perm_singleton.mp hperm

/-! A turn of a worker, by its action (R107, R108, 42_reduction.md R131). -/

theorem laneAction_of_lt {l : Lane} {i : BitIndex} (hrun : l.ph = .run) (hmin : minIndex l.todo = some i)
    (hlt : l.p < i) (e : Eng) : laneAction e l = some .square := by
  simp [laneAction, hrun, hmin, hlt]

theorem laneAction_of_eq {l : Lane} (hrun : l.ph = .run) (hmin : minIndex l.todo = some l.p) (e : Eng) :
    laneAction e l = some .absorb := by
  simp [laneAction, hrun, hmin]

/-- Only COMBINE asks for the state of the controller. -/
theorem laneAction_of_run {l : Lane} (hrun : l.ph = .run) (e e' : Eng) : laneAction e l = laneAction e' l := by
  simp [laneAction, hrun]

/-- The partial product of a lane after it absorbs its index. -/
def Lane.product (b m : Word) (l : Lane) : Word := if bitOf b l.p then mulReduce l.lr l.lb m else l.lr

section
variable {s : State} {k : Nat} {l : Lane} (hl : s.lanes[k]? = some l) (hm : s.lat.m ≠ 0#64)
include hl hm

theorem runTurn_worker_square (ha : laneAction s.eng l = some .square) :
    runTurn (.worker k) s = .next (s.setLanes (s.lanes.set k (l.squared (mulReduce l.lb l.lb s.lat.m)))) := by
  simp [runTurn, workerStep, hl, ha, squareStep, modmul_of_ne_zero hm]

theorem runTurn_worker_absorb (ha : laneAction s.eng l = some .absorb) :
    runTurn (.worker k) s = .next (s.setLanes (s.lanes.set k (l.absorbed (l.product s.lat.b s.lat.m)))) := by
  cases hb : bitOf s.lat.b l.p <;>
    simp [runTurn, workerStep, hl, ha, absorbStep, Lane.product, hb, modmul_of_ne_zero hm]

theorem runTurn_worker_combine (ha : laneAction s.eng l = some .combine) :
    runTurn (.worker k) s =
      .next ((s.setAcc (mulReduce s.acc l.lr s.lat.m)).setLanes (s.lanes.set k l.joined)) := by
  simp [runTurn, workerStep, hl, ha, combineStep, modmul_of_ne_zero hm]

end

/-- A lane after a turn of its worker that does not combine. -/
def Lane.stepped (b m : Word) (l : Lane) : Lane :=
  match laneAction .idle l with
  | some .square => l.squared (mulReduce l.lb l.lb m)
  | some .absorb => l.absorbed (l.product b m)
  | some .combine | none => l

/-- R113: a turn of a RUN worker is a function of its lane, lat.b and lat.m. -/
theorem runTurn_worker_of_run {s : State} {k : Nat} {l : Lane} (hl : s.lanes[k]? = some l) (hrun : l.ph = .run)
    (hm : s.lat.m ≠ 0#64) :
    runTurn (.worker k) s = .next (s.setLanes (s.lanes.set k (l.stepped s.lat.b s.lat.m))) := by
  have he := laneAction_of_run hrun s.eng .idle
  unfold Lane.stepped
  split
  next ha => exact runTurn_worker_square hl hm (he.trans ha)
  next ha => exact runTurn_worker_absorb hl hm (he.trans ha)
  next ha => simp [laneAction_combine ha] at hrun
  next ha =>
    have hdisabled : workerEnabled s k = false := by simp [workerEnabled, hl, he, ha]
    obtain ⟨hk, rfl⟩ := List.getElem?_eq_some_iff.mp hl
    rw [List.set_getElem_self]
    exact workerStep_of_not_enabled hdisabled

/-! Acceptance and completion (R105, 42_reduction.md R133). -/

theorem exec_modexp_of_legal {s : State} (idle : s.status.busy = false) (legal : s.modexpLegal) (ign : BitVec 60) :
    exec (.modexp ign) s = .next (startModexp s) := by
  obtain ⟨hm, hw, hcaps, hpart⟩ := legal
  have haccept : acceptModexp s = startModexp s := by
    simp [acceptModexp, hm, hw, hpart, BitVec.not_lt.mpr hcaps]
  exact (issue_idle acceptModexp idle).trans (congrArg _ haccept)

theorem startModexp_running {s : State} (h : s.Inv) (legal : s.modexpLegal) (hr : Turn.reset ∉ s.turns) :
    Running .exp (latchModexp s) (startModexp s) :=
  ⟨startModexp_inv h legal, rfl, rfl, hr⟩

/-- When every used lane is COMBINED, the others are OFF (R111). -/
theorem State.Inv.passive_of_allCombined {s : State} (h : s.Inv) (hexp : s.eng = .exp) (hc : allCombined s = true) :
    ∀ l ∈ s.lanes, l.ph = .off ∨ l.ph = .combined := by
  intro l hl
  obtain ⟨k, hk⟩ := List.getElem?_of_mem hl
  rcases lt_or_ge k s.lat.w.toNat with hlt | hge
  · have htake : l ∈ s.lanes.take s.lat.w.toNat := List.mem_of_getElem? ((List.getElem?_take_of_lt hlt).trans hk)
    exact .inr (of_decide_eq_true (List.all_eq_true.mp hc l htake))
  · exact .inl ((h.lanes.laneOk hexp k l hk).unusedOff.mpr hge)

/-- R112: with nothing left to multiply in, acc is the power. -/
theorem State.Inv.acc_of_allCombined {s : State} (h : s.Inv) (hexp : s.eng = .exp) (hc : allCombined s = true) :
    s.acc.toNat = s.lat.a.toNat ^ s.lat.b.toNat % s.lat.m.toNat := by
  obtain ⟨hlt, hprod⟩ := h.product hexp
  have hone : (s.lanes.map (Lane.owed s.lat)).prod = 1 := by
    refine List.prod_eq_one fun n hn => ?_
    obtain ⟨l, hl, rfl⟩ := List.mem_map.mp hn
    exact owed_of_passive (h.passive_of_allCombined hexp hc l hl)
  rwa [hone, mul_one, Nat.mod_eq_of_lt hlt] at hprod

/-- Without reset, a MODEXP ends in its completion, and in no other way. -/
theorem step_ends_exp {s t : State} (h : step s = .next t) (hexp : s.eng = .exp) (hr : ¬s.resetNext)
    (hend : t.eng = .idle) : allCombined s = true ∧ t.result = s.acc ∧ t.status = s.status.completed := by
  obtain ⟨u, hu, he⟩ := step_effect h
  have huexp : u.eng ≠ .idle := by simp [hu.eng, hexp]
  have hall : allCombined u = allCombined s := by simp only [allCombined, hu.lanes, hu.lat]
  rw [← hall, ← hu.acc, ← hu.status]
  cases he with
  | reset hreset => exact absurd hreset hr
  | expDone _ hc => exact ⟨hc, rfl, rfl⟩
  | mulDone hmul => simp [hu.eng, hexp] at hmul
  | write r v => exact absurd ((writeRegister_operandsOnly r v u).eng ▸ hend) huexp
  | command v _ hx =>
    cases hx with
    | modmul => cases hend
    | modexp => cases hend
    | _ => exact absurd hend huexp
  | _ => exact absurd hend huexp

/-! The steps a lane has left (R114). -/

theorem le_maxIndex {l : List BitIndex} {i : BitIndex} (h : i ∈ l) : i.val ≤ maxIndex l := by
  induction l with
  | nil => cases h
  | cons x xs ih =>
    rcases List.mem_cons.mp h with rfl | h
    · exact le_max_left _ _
    · exact (ih h).trans (le_max_right _ _)

theorem maxIndex_le (l : List BitIndex) : maxIndex l ≤ 63 := by
  induction l with
  | nil => exact Nat.zero_le 63
  | cons x xs ih => exact max_le (Nat.le_of_lt_succ x.isLt) ih

/-- The least index of an increasing list is its first, and taking it out leaves the rest. -/
theorem eq_cons_of_minIndex {todo : List BitIndex} {p : BitIndex} (hsorted : todo.Pairwise (· < ·))
    (hmin : minIndex todo = some p) : ∃ rest, todo = p :: rest ∧ withoutIndex todo p = rest := by
  obtain ⟨hmem, hle⟩ := minIndex_least hmin
  cases todo with
  | nil => cases hmem
  | cons x xs =>
    obtain ⟨hfirst, -⟩ := List.pairwise_cons.mp hsorted
    obtain rfl : p = x := by
      rcases List.mem_cons.mp hmem with rfl | hxs
      · rfl
      · exact absurd (hfirst p hxs) (not_lt.mpr (hle x List.mem_cons_self))
    refine ⟨xs, rfl, ?_⟩
    simpa [withoutIndex] using fun j hj => (hfirst j hj).ne'

theorem work_of_run {l : Lane} (h : l.ph = .run) : l.work = (maxIndex l.todo - l.p.val) + l.todo.length + 1 := by
  simp [Lane.work, h]

theorem work_of_ready {l : Lane} (h : l.ph = .ready) : l.work = 1 := by simp [Lane.work, h]

theorem work_of_passive {l : Lane} (h : l.ph = .off ∨ l.ph = .combined) : l.work = 0 := by
  rcases h with h | h <;> simp [Lane.work, h]

theorem work_squared {l : Lane} {i : BitIndex} (hrun : l.ph = .run) (hmin : minIndex l.todo = some i) (hlt : l.p < i)
    (lb : Word) : (l.squared lb).work + 1 = l.work := by
  have hp : (l.p + 1).val = l.p.val + 1 := Fin.val_add_one_of_lt' ((Nat.succ_le_of_lt hlt).trans_lt i.isLt)
  have hmax : i.val ≤ maxIndex l.todo := le_maxIndex (minIndex_least hmin).1
  have hval : l.p.val < i.val := hlt
  rw [work_of_run hrun, work_of_run (l := l.squared lb) hrun]
  simp only [Lane.squared, hp]
  omega

/-- ABSORB takes the least index, so the last one stays, unless it was the only one. -/
theorem work_absorbed {l : Lane} (hrun : l.ph = .run) (hsorted : l.todo.Pairwise (· < ·))
    (hmin : minIndex l.todo = some l.p) (lr : Word) : (l.absorbed lr).work + 1 = l.work := by
  obtain ⟨rest, htodo, hrest⟩ := eq_cons_of_minIndex hsorted hmin
  have hafter : (l.absorbed lr).todo = rest := hrest
  have hph := absorbed_ph hrun lr
  rw [hafter] at hph
  rw [work_of_run hrun, htodo]
  cases rest with
  | nil =>
    rw [work_of_ready (hph.trans (if_pos rfl))]
    simp [maxIndex]
  | cons j rest =>
    obtain ⟨hless, -⟩ := List.pairwise_cons.mp (htodo ▸ hsorted)
    have hle : l.p.val ≤ maxIndex (j :: rest) := calc
      l.p.val ≤ j.val := (hless j List.mem_cons_self).le
      _ ≤ maxIndex (j :: rest) := le_maxIndex List.mem_cons_self
    have hlast : maxIndex (l.p :: j :: rest) = maxIndex (j :: rest) := max_eq_right hle
    rw [work_of_run (hph.trans (if_neg (List.cons_ne_nil _ _))), hafter, hlast]
    rfl

theorem work_joined {l : Lane} (hready : l.ph = .ready) : l.joined.work + 1 = l.work := by
  rw [work_of_passive (.inr rfl), work_of_ready hready]

/-! The steps the command has left (R114). -/

theorem State.work_of_exp {s : State} (h : s.eng = .exp) : s.work = (s.lanes.map Lane.work).sum + 1 := by
  simp [State.work, h]

theorem State.work_of_mul {s : State} (h : s.eng = .mul) : s.work = 1 := by simp [State.work, h]

theorem State.work_of_idle {s : State} (h : s.eng = .idle) : s.work = 0 := by simp [State.work, h]

theorem sum_map_set {α : Type} (f : α → Nat) {l : List α} {k : Nat} {x : α} (h : l[k]? = some x) (y : α) :
    ((l.set k y).map f).sum + f x = (l.map f).sum + f y := by
  induction l generalizing k with
  | nil => simp at h
  | cons z zs ih =>
    cases k with
    | zero =>
      obtain rfl : z = x := by simpa using h
      simp only [List.set_cons_zero, List.map_cons, List.sum_cons]
      omega
    | succ k =>
      have hzs := ih (k := k) (by simpa using h)
      simp only [List.set_cons_succ, List.map_cons, List.sum_cons]
      omega

/-- A step of one lane takes from the command what it takes from the lane. -/
theorem work_setLane {s t : State} {k : Nat} {l l' : Lane} (hexp : s.eng = .exp) (hl : s.lanes[k]? = some l)
    (heng : t.eng = s.eng) (hlanes : t.lanes = s.lanes.set k l') (hwork : l'.work + 1 = l.work) :
    t.work + 1 = s.work := by
  have hsum := sum_map_set Lane.work hl l'
  rw [State.work_of_exp hexp, State.work_of_exp (heng.trans hexp), hlanes]
  omega

theorem runTurn_worker_progress {s : State} (hs : s.Inv) {k : Nat} (h : workerEnabled s k = true) :
    ∃ t, runTurn (.worker k) s = .next t ∧ t.work + 1 = s.work := by
  obtain ⟨l, a, hl, ha⟩ : ∃ l a, s.lanes[k]? = some l ∧ laneAction s.eng l = some a := by
    unfold workerEnabled at h
    split at h
    · cases h
    next l hl =>
      obtain ⟨a, ha⟩ := Option.isSome_iff_exists.mp h
      exact ⟨l, a, hl, ha⟩
  have hexp : s.eng = .exp := hs.lanes.exp_of_active hl (ph_ne_off_of_laneAction ha)
  obtain ⟨-, hm, -⟩ := hs.latches.expLatched hexp
  cases a with
  | square =>
    obtain ⟨hrun, i, hmin, hlt⟩ := laneAction_square ha
    exact ⟨_, runTurn_worker_square hl hm ha, work_setLane hexp hl rfl rfl (work_squared hrun hmin hlt _)⟩
  | absorb =>
    obtain ⟨hrun, hmin⟩ := laneAction_absorb ha
    have hsorted := (hs.lanes.laneOk hexp k l hl).increasing hrun
    exact ⟨_, runTurn_worker_absorb hl hm ha, work_setLane hexp hl rfl rfl (work_absorbed hrun hsorted hmin _)⟩
  | combine =>
    obtain ⟨hready, -⟩ := laneAction_combine ha
    exact ⟨_, runTurn_worker_combine hl hm ha, work_setLane hexp hl rfl rfl (work_joined hready)⟩

theorem runTurn_controller_of_exp {s : State} (hexp : s.eng = .exp) (hc : allCombined s = true) :
    runTurn .controller s = .next (completeModexp s) := by
  simp [runTurn, controllerStep, hexp, hc]

theorem runTurn_controller_progress {s : State} (hs : s.Inv) (h : controllerEnabled s = true) :
    ∃ t, runTurn .controller s = .next t ∧ t.work + 1 = s.work := by
  cases he : s.eng with
  | idle => simp [controllerEnabled, he] at h
  | mul =>
    obtain ⟨-, hm⟩ := hs.latches.mulLatched he
    refine ⟨_, (runTurn_controller_of_mul he).trans (completeModmul_of_ne_zero hm), ?_⟩
    rw [State.work_of_mul he, State.work_of_idle rfl]
  | exp =>
    have hc : allCombined s = true := by simpa [controllerEnabled, he] using h
    have hsum : (s.lanes.map Lane.work).sum = 0 := by
      refine List.sum_eq_zero fun n hn => ?_
      obtain ⟨l, hl, rfl⟩ := List.mem_map.mp hn
      exact work_of_passive (hs.passive_of_allCombined he hc l hl)
    refine ⟨_, runTurn_controller_of_exp he hc, ?_⟩
    rw [State.work_of_exp he, hsum, State.work_of_idle rfl]

/-! The steps of a command right after acceptance (R114). -/

theorem work_initLane (lat : Latches) (k : Nat) (l : Lane) :
    (initLane lat k l).work =
      if k < lat.w.toNat then maxIndex (assignedSet lat k) + (assignedSet lat k).length + 1 else 0 := by
  split
  next hk =>
    rw [initLane_of_lt hk]
    by_cases hnil : assignedSet lat k = []
    · rw [work_of_ready (if_pos hnil), hnil]
      rfl
    · rw [work_of_run (if_neg hnil)]
      rfl
  next hk =>
    rw [initLane_of_le (not_lt.mp hk)]
    exact work_of_passive (.inl rfl)

/-- Where each element's image depends on its position alone, the images are those of the positions. -/
theorem map_mapIdx_of_index {α β γ : Type} {f : β → γ} {g : Nat → α → β} {c : Nat → γ} (h : ∀ k x, f (g k x) = c k)
    (l : List α) : (l.mapIdx g).map f = (List.range l.length).map c := by
  apply List.ext_getElem <;> simp [h]

theorem sum_range_ite_lt {w n : Nat} (hw : w ≤ n) (f : Nat → Nat) :
    ((List.range n).map fun k => if k < w then f k else 0).sum = ((List.range w).map f).sum := by
  obtain ⟨d, rfl⟩ := Nat.exists_eq_add_of_le hw
  have hfirst : ((List.range w).map fun k => if k < w then f k else 0) = (List.range w).map f :=
    List.map_congr_left fun k hk => if_pos (List.mem_range.mp hk)
  simp [List.range_add, hfirst, Function.comp_def]

theorem startModexp_work {s : State} (hfit : s.LanesFitted) (legal : s.modexpLegal) :
    (startModexp s).work = ((List.range s.config.w.toNat).map fun k =>
      maxIndex (assignedSet (latchModexp s) k) + (assignedSet (latchModexp s) k).length + 1).sum + 1 := by
  have hlanes : (startModexp s).lanes = s.lanes.mapIdx (initLane (latchModexp s)) := rfl
  rw [State.work_of_exp rfl, hlanes, map_mapIdx_of_index (work_initLane (latchModexp s))]
  exact congrArg (· + 1) (sum_range_ite_lt (hfit.2 ▸ legal.workers_le_caps) _)

theorem length_filter_allIndices (p : BitIndex → Prop) [DecidablePred p] :
    (allIndices.filter fun i => decide (p i)).length = (Finset.univ.filter p).card := by
  have hnodup := (List.nodup_finRange 64).filter fun i => decide (p i)
  have hset : (allIndices.filter fun i => decide (p i)).toFinset = Finset.univ.filter p := by
    ext i
    simp [allIndices]
  rw [← hset]
  exact (List.toFinset_card_of_nodup hnodup).symm

/-- R104: the sets of the workers hold the 64 indices, each once. -/
theorem sum_length_assignedSet {s : State} (legal : s.modexpLegal) :
    ((List.range s.config.w.toNat).map fun k => (assignedSet (latchModexp s) k).length).sum = 64 := by
  obtain ⟨owner, hlt, hsets⟩ := exists_owner legal
  have hlen : ∀ k ∈ List.range s.config.w.toNat,
      (assignedSet (latchModexp s) k).length = (Finset.univ.filter fun i => owner i = k).card := fun k hk => by
    rw [hsets k (List.mem_range.mp hk), length_filter_allIndices]
  rw [List.map_congr_left hlen]
  exact (Finset.card_eq_sum_card_fiberwise fun i _ => Finset.mem_coe.mpr (Finset.mem_range.mpr (hlt i))).symm

/-- R114: each worker has at most 63 SQUAREs and one COMBINE, and there are 64 ABSORBs. -/
theorem startModexp_work_le {s : State} (hfit : s.LanesFitted) (legal : s.modexpLegal) :
    (startModexp s).work ≤ 63 * s.config.w.toNat + 64 + s.config.w.toNat + 1 := by
  have hmax : ((List.range s.config.w.toNat).map fun k => maxIndex (assignedSet (latchModexp s) k)).sum ≤
      s.config.w.toNat * 63 := by
    simpa using List.sum_le_card_nsmul
      ((List.range s.config.w.toNat).map fun k => maxIndex (assignedSet (latchModexp s) k)) 63
      (by simpa using fun k _ => maxIndex_le _)
  rw [startModexp_work hfit legal, List.sum_map_add, List.sum_map_add, sum_length_assignedSet legal]
  simp only [List.map_const', List.length_range, List.sum_replicate, smul_eq_mul]
  omega

end Sys2Proof.Machine

namespace Sys2Proof.Proofs
open Sys2Proof.Machine

/-- Settles O28: acc is the power when all lanes are COMBINED, which the completion waits for, and the latches
stand until then. -/
theorem modexpGivesReferenceValue : Obligations.ModexpGivesReferenceValue := by
  intro ign s t u v n hinv idle legal hr hexec hf hrun hstep hend
  obtain rfl : startModexp s = t := Host.Outcome.next.inj ((exec_modexp_of_legal idle legal ign).symm.trans hexec)
  have hu : Running .exp (latchModexp s) u := (startModexp_running hinv legal hr).of_run (by decide) hf hrun
  obtain ⟨hc, hres, hst⟩ := step_ends_exp hstep hu.eng (not_resetNext_of_not_mem hu.noReset) hend
  have hacc := hu.inv.acc_of_allCombined hu.eng hc
  rw [hu.lat] at hacc
  obtain ⟨hm, -⟩ := legal
  obtain ⟨r, href, hval⟩ := refModexp_eq_power (x := s.opa) (e := s.opb) hm
  exact ⟨r, href, hval, hres.trans (BitVec.eq_of_toNat_eq (hacc.trans hval.symm)), by rw [hst]; rfl,
    by rw [hst]; rfl⟩

/-- Settles O9: an idle block issues the command, whose checks pass, and `initLane` starts each lane. -/
theorem modexpIsAccepted : Obligations.ModexpIsAccepted := by
  intro ign s idle legal
  refine ⟨startModexp s, exec_modexp_of_legal idle legal ign, rfl, List.length_mapIdx, fun k l hl => ?_⟩
  have hlane : (startModexp s).lanes[k]? = some (initLane (latchModexp s) k l) := by
    simp [startModexp, List.getElem?_mapIdx, hl]
  exact hlane

/-- Settles O17: the loop multiplies in the factor of every bit of the exponent. -/
theorem referenceIsPower : Obligations.ReferenceIsPower := fun _ _ _ => refModexp_eq_power

/-- Settles O19: the two forms of a block's start and length. -/
theorem contiguousBlocks : Obligations.ContiguousBlocks := by
  intro w k i _ _ q r
  refine ⟨fun hk => ?first, fun hk => ?others, fun hw => ⟨?one, fun hk => ?none⟩⟩
  case first => rw [mem_contigSet, contigStart_of_lt hk, contigLength_of_lt hk, add_assoc]
  case others => rw [mem_contigSet, contigStart_of_le hk, contigLength_of_le hk, add_one_mul, add_assoc]
  case one =>
    rintro rfl
    exact contigSet_eq_singleton hw i
  case none =>
    refine List.eq_nil_iff_forall_not_mem.mpr fun j hj => ?_
    rw [mem_contigSet_of_many hw] at hj
    omega

/-- Settles O20: the owner of an index is the one worker whose set it is in. -/
theorem partitionLaw : Obligations.PartitionLaw := by
  intro s legal i
  obtain ⟨owner, hlt, hsets⟩ := exists_owner legal
  have hmem {k : Nat} (hk : k < s.config.w.toNat) : i ∈ assignedSet (latchModexp s) k ↔ owner i = k := by
    simp [hsets k hk, allIndices]
  exact ⟨owner i, hlt i, (hmem (hlt i)).mpr rfl, fun j hj hi => ((hmem hj).mp hi).symm⟩

/-- Settles O22: the worker's turn is ABSORB. -/
theorem absorbStep : Obligations.AbsorbStep := by
  intro s k l hl hrun hmin hm
  refine ⟨l.product s.lat.b s.lat.m, withoutIndex l.todo l.p, fun hb => ?set, fun hb => ?clear,
    fun _ => mem_withoutIndex, ?turn⟩
  case set =>
    have hb : bitOf s.lat.b l.p = true := hb
    rw [Lane.product, if_pos hb, mulReduce_toNat _ _ hm]
  case clear =>
    have hb : bitOf s.lat.b l.p = false := hb
    simp [Lane.product, hb]
  case turn =>
    rw [runTurn_worker_absorb hl hm (laneAction_of_eq hrun hmin _), Lane.absorbed, hrun]
    rfl

/-- Settles O25: the next lane is `Lane.stepped` of lane, lat.b and lat.m. -/
theorem workerStepsArePrivate : Obligations.WorkerStepsArePrivate := by
  intro s u k l hs hu hrun hb hm hne
  refine ⟨l.stepped s.lat.b s.lat.m, runTurn_worker_of_run hs hrun hne, ?_⟩
  rw [← hb, ← hm]
  exact runTurn_worker_of_run hu hrun (hm ▸ hne)

/-- Settles O43, agent by agent. -/
theorem everyInternalStepIsProgress : Obligations.EveryInternalStepIsProgress := fun _ hs =>
  ⟨fun _ => runTurn_worker_progress hs, runTurn_controller_progress hs⟩

/-- Settles O44: the count of the lanes that acceptance starts, and its bound. -/
theorem acceptedWorkIsBounded : Obligations.AcceptedWorkIsBounded := by
  intro ign s t hinv idle legal hexec
  obtain rfl : startModexp s = t := Host.Outcome.next.inj ((exec_modexp_of_legal idle legal ign).symm.trans hexec)
  exact ⟨startModexp_work hinv.fitted legal, startModexp_work_le hinv.fitted legal⟩

/-- Settles O18: the remainder of an index is at most the index, so below 64. -/
theorem stripedOwnership : Obligations.StripedOwnership := by
  intro w k i _ _
  refine ⟨mem_stripedSet, fun hk => List.eq_nil_iff_forall_not_mem.mpr fun j hj => ?_⟩
  have hle := Nat.mod_le j.val w
  rw [mem_stripedSet.mp hj] at hle
  omega

/-- Settles O21: the worker's turn is SQUARE, and an index above p is at most 63. -/
theorem squareStep : Obligations.SquareStep := by
  intro s k l i hl hrun hmin hlt hm
  exact ⟨mulReduce l.lb l.lb s.lat.m, l.p + 1, mulReduce_toNat _ _ hm,
    Fin.val_add_one_of_lt' ((Nat.succ_le_of_lt hlt).trans_lt i.isLt),
    runTurn_worker_square hl hm (laneAction_of_lt hrun hmin hlt _)⟩

end Sys2Proof.Proofs

/-! SUPPORT. Proofs about the reduction: reduction trees, a turn of any worker as a function of the state, COMBINE,
the completion of MODEXP, and what a step does to lanes and accumulator (42_reduction.md R130 to R135). -/

namespace Sys2Proof.Machine

/-! The reduction trees (R135). -/

/-- The root has a value, which is the product of the leaves modulo m. -/
theorem ReduceTree.root_modEq {m : Word} (hm : m ≠ 0#64) (tree : ReduceTree) :
    ∃ v, tree.root m = some v ∧ v.toNat ≡ (tree.leaves.map BitVec.toNat).prod [MOD m.toNat] := by
  induction tree with
  | leaf v => exact ⟨v, rfl, by simp [ReduceTree.leaves, Nat.ModEq.refl]⟩
  | node l r ihl ihr =>
    obtain ⟨x, hx, hxmod⟩ := ihl
    obtain ⟨y, hy, hymod⟩ := ihr
    refine ⟨mulReduce x y m, by simp only [ReduceTree.root, hx, hy, modmul_of_ne_zero hm], ?_⟩
    rw [mulReduce_toNat x y hm, ReduceTree.leaves, List.map_append, List.prod_append]
    exact (Nat.mod_modEq _ _).trans (hxmod.mul hymod)

/-- The root is a product that `modmul` reduced, unless the tree is one leaf. -/
theorem ReduceTree.root_reduced {m v : Word} {tree : ReduceTree} (h : tree.root m = some v) :
    tree.leaves = [v] ∨ v.toNat < m.toNat := by
  cases tree with
  | leaf x =>
    obtain rfl : x = v := Option.some.inj h
    exact .inl rfl
  | node l r =>
    simp only [ReduceTree.root] at h
    split at h
    · obtain ⟨hm, rfl⟩ := modmul_some h
      rw [mulReduce_toNat _ _ hm]
      exact .inr (Nat.mod_lt _ (toNat_pos_of_ne_zero hm))
    · cases h

/-! A turn of a worker (41_modexp.md R107, R108, R131), whatever its lane has enabled. -/

/-- A lane after a turn of its worker. -/
def Lane.after (e : Eng) (lat : Latches) (l : Lane) : Lane :=
  match laneAction e l with
  | some .square => l.squared (mulReduce l.lb l.lb lat.m)
  | some .absorb => l.absorbed (l.product lat.b lat.m)
  | some .combine => l.joined
  | none => l

/-- The accumulator after a turn of the lane's worker: only COMBINE multiplies into it. -/
def Lane.addedTo (e : Eng) (lat : Latches) (acc : Word) (l : Lane) : Word :=
  if laneAction e l = some .combine then mulReduce acc l.lr lat.m else acc

/-- What a turn of worker k makes of an accumulator. -/
def State.accAfter (s : State) (k : Nat) (acc : Word) : Word :=
  s.lanes[k]?.elim acc (Lane.addedTo s.eng s.lat acc)

/-- The machine after a turn of worker k. -/
def State.afterWorker (k : Nat) (s : State) : State :=
  (s.setAcc (s.accAfter k s.acc)).setLanes (s.lanes.modify k (Lane.after s.eng s.lat))

theorem afterWorker_of_lane {s : State} {k : Nat} {l : Lane} (hl : s.lanes[k]? = some l) :
    s.afterWorker k =
      (s.setAcc (l.addedTo s.eng s.lat s.acc)).setLanes (s.lanes.set k (l.after s.eng s.lat)) := by
  simp [State.afterWorker, State.accAfter, List.modify_eq_set_getElem?, hl]

theorem afterWorker_of_no_lane {s : State} {k : Nat} (hl : s.lanes[k]? = none) : s.afterWorker k = s := by
  rw [State.afterWorker, State.accAfter, hl, List.modify_eq_self (List.getElem?_eq_none_iff.mp hl)]
  rfl

/-- A worker with no step enabled leaves its lane and acc as they are. -/
theorem afterWorker_of_no_action {s : State} {k : Nat} {l : Lane} (hl : s.lanes[k]? = some l)
    (ha : laneAction s.eng l = none) : s.afterWorker k = s := by
  obtain ⟨hk, rfl⟩ := List.getElem?_eq_some_iff.mp hl
  rw [afterWorker_of_lane hl, Lane.after, Lane.addedTo, ha, List.set_getElem_self]
  rfl

/-- Every turn of a worker is this one function of the machine. -/
theorem runTurn_worker {s : State} (hm : s.lat.m ≠ 0#64) (k : Nat) :
    runTurn (.worker k) s = .next (s.afterWorker k) := by
  cases hl : s.lanes[k]? with
  | none =>
    rw [afterWorker_of_no_lane hl]
    exact workerStep_of_not_enabled (by simp [workerEnabled, hl])
  | some l =>
    cases ha : laneAction s.eng l with
    | none =>
      rw [afterWorker_of_no_action hl ha]
      exact workerStep_of_not_enabled (by simp [workerEnabled, hl, ha])
    | some a =>
      rw [afterWorker_of_lane hl, Lane.after, Lane.addedTo, ha]
      cases a with
      | square => exact runTurn_worker_square hl hm ha
      | absorb => exact runTurn_worker_absorb hl hm ha
      | combine => exact runTurn_worker_combine hl hm ha

/-! Two workers (R134). -/

/-- Two partial products multiplied into acc, in either order. -/
theorem mulReduce_right_comm {m : Word} (hm : m ≠ 0#64) (a b c : Word) :
    mulReduce (mulReduce a b m) c m = mulReduce (mulReduce a c m) b m := by
  apply BitVec.eq_of_toNat_eq
  rw [mulReduce_mulReduce_toNat hm, mulReduce_mulReduce_toNat hm, mul_right_comm]

theorem addedTo_comm {lat : Latches} (hm : lat.m ≠ 0#64) (e : Eng) (acc : Word) (l x : Lane) :
    x.addedTo e lat (l.addedTo e lat acc) = l.addedTo e lat (x.addedTo e lat acc) := by
  unfold Lane.addedTo
  split <;> split
  · exact mulReduce_right_comm hm ..
  all_goals rfl

theorem accAfter_comm {s : State} (hm : s.lat.m ≠ 0#64) (j k : Nat) (acc : Word) :
    s.accAfter k (s.accAfter j acc) = s.accAfter j (s.accAfter k acc) := by
  unfold State.accAfter
  cases s.lanes[j]? with
  | none => rfl
  | some l =>
    cases s.lanes[k]? with
    | none => rfl
    | some x => exact addedTo_comm hm s.eng acc l x

/-- A worker finds its lane as it was before another worker's turn. -/
theorem afterWorker_afterWorker (s : State) {j k : Nat} (hjk : j ≠ k) :
    (s.afterWorker j).afterWorker k =
      (s.setAcc (s.accAfter k (s.accAfter j s.acc))).setLanes
        ((s.lanes.modify j (Lane.after s.eng s.lat)).modify k (Lane.after s.eng s.lat)) := by
  have hlane : (s.afterWorker j).lanes[k]? = s.lanes[k]? := List.getElem?_modify_ne _ _ hjk
  rw [State.afterWorker, State.accAfter, hlane]
  rfl

theorem afterWorker_comm {s : State} (hm : s.lat.m ≠ 0#64) {j k : Nat} (hjk : j ≠ k) :
    (s.afterWorker j).afterWorker k = (s.afterWorker k).afterWorker j := by
  rw [afterWorker_afterWorker s hjk, afterWorker_afterWorker s hjk.symm, accAfter_comm hm,
    List.modify_modify_ne _ _ _ hjk]

/-! The completion of MODEXP (R133). -/

theorem allCombined_iff (s : State) :
    allCombined s = true ↔ ∀ k < s.lat.w.toNat, ∀ l, s.lanes[k]? = some l → l.ph = .combined := by
  simp only [allCombined, List.all_eq_true, decide_eq_true_eq, List.mem_iff_getElem?, List.getElem?_take]
  constructor
  · intro h k hk l hl
    exact h l ⟨k, (if_pos hk).trans hl⟩
  · rintro h l ⟨k, hk⟩
    split at hk
    next hlt => exact h k hlt l hk
    next => cases hk

/-! What a step does to the lanes and to acc while a MODEXP runs (R132). -/

/-- A lane's way forward in a step from `s` to `t`: it keeps its phase, becomes READY from RUN, or becomes COMBINED
from READY with its partial product multiplied into acc. -/
def LaneForward (s t : State) (l l' : Lane) : Prop :=
  l'.ph = l.ph ∨ (l.ph = .run ∧ l'.ph = .ready) ∨
    (l.ph = .ready ∧ l'.ph = .combined ∧ modmul s.acc l.lr s.lat.m = some t.acc)

/-- What became of the lanes and acc of a running MODEXP: nothing, or one lane went forward, and acc stayed unless
the lane became COMBINED. -/
inductive LanesEffect (s t : State) : Prop
  | kept (hlanes : t.lanes = s.lanes) (hacc : t.acc = s.acc)
  | moved {k : Nat} {l l' : Lane} (hl : s.lanes[k]? = some l) (hlanes : t.lanes = s.lanes.set k l')
      (hforward : LaneForward s t l l') (hacc : t.acc = s.acc ∨ l.ph = .ready ∧ l'.ph = .combined)

theorem LaneForward.squared (s t : State) (l : Lane) (lb : Word) : LaneForward s t l (l.squared lb) := .inl rfl

theorem LaneForward.absorbed {s t : State} {l : Lane} (hrun : l.ph = .run) (lr : Word) :
    LaneForward s t l (l.absorbed lr) := by
  rw [LaneForward, absorbed_ph hrun, hrun]
  split <;> simp

theorem step_lanesEffect {s t : State} (h : step s = .next t) (hok : s.EngineOk) (hexp : s.eng = .exp)
    (hend : t.eng = .exp) : LanesEffect s t := by
  obtain ⟨u, hu, he⟩ := step_effect h
  have hbusy : u.status.busy = true := hu.status ▸ hok.mp (by simp [hexp])
  have hset (k : Nat) (l : Lane) : u.lanes.set k l = s.lanes.set k l := by rw [hu.lanes]
  cases he with
  | wait => exact .kept hu.lanes hu.acc
  | write r v =>
    have hw := writeRegister_operandsOnly r v u
    exact .kept (hw.lanes.trans hu.lanes) (hw.acc.trans hu.acc)
  | command v _ hx =>
    cases hx with
    | modmul idle => simp [hbusy] at idle
    | modexp idle => simp [hbusy] at idle
    | _ => exact .kept hu.lanes hu.acc
  | square hl => exact .moved (hu.lanes ▸ hl) (hset _ _) (.squared _ _ _ _) (.inl hu.acc)
  | absorb hl ha =>
    obtain ⟨hrun, -⟩ := laneAction_absorb ha
    exact .moved (hu.lanes ▸ hl) (hset _ _) (.absorbed hrun _) (.inl hu.acc)
  | combine hl ha hm =>
    obtain ⟨hready, -⟩ := laneAction_combine ha
    rw [hu.acc, hu.lat] at hm
    exact .moved (hu.lanes ▸ hl) (hset _ _) (.inr (.inr ⟨hready, rfl, hm⟩)) (.inr ⟨hready, rfl⟩)
  | reset => cases hend
  | mulDone => cases hend
  | expDone => cases hend

section
variable {s t : State} (h : LanesEffect s t)
include h

theorem LanesEffect.forward {k : Nat} {l : Lane} (hl : s.lanes[k]? = some l) :
    ∃ l', t.lanes[k]? = some l' ∧ LaneForward s t l l' := by
  cases h with
  | kept hlanes => exact ⟨l, hlanes ▸ hl, .inl rfl⟩
  | @moved i x x' hx hlanes hforward =>
    rw [hlanes]
    rcases eq_or_ne i k with rfl | hne
    · obtain rfl : x = l := Option.some.inj (hx.symm.trans hl)
      exact ⟨x', by simp [List.getElem?_set_self', hx], hforward⟩
    · exact ⟨l, (List.getElem?_set_ne hne).trans hl, .inl rfl⟩

/-- Where one lane changed, the others stand. -/
theorem LanesEffect.others_kept {j k : Nat} (hjk : j ≠ k) (hj : t.lanes[j]? ≠ s.lanes[j]?) :
    t.lanes[k]? = s.lanes[k]? := by
  cases h with
  | kept hlanes => rw [hlanes]
  | @moved i _ _ _ hlanes =>
    rw [hlanes] at hj ⊢
    obtain rfl : i = j := by
      by_contra hne
      exact hj (List.getElem?_set_ne hne)
    exact List.getElem?_set_ne hjk

theorem LanesEffect.acc_kept_or_combined :
    t.acc = s.acc ∨ ∃ (k : Nat) (l l' : Lane), s.lanes[k]? = some l ∧ t.lanes[k]? = some l' ∧ l.ph = .ready ∧
      l'.ph = .combined := by
  cases h with
  | kept _ hacc => exact .inl hacc
  | @moved k l l' hl hlanes _ hacc =>
    exact hacc.imp_right fun ⟨hready, hcombined⟩ =>
      ⟨k, l, l', hl, by simp [hlanes, List.getElem?_set_self', hl], hready, hcombined⟩

end

end Sys2Proof.Machine

namespace Sys2Proof.Proofs
open Sys2Proof.Machine

/-- Settles O30: both RESULTs are the reference value of the same three operands. -/
theorem resultIndependentOfWorkersAndOrder : Obligations.ResultIndependentOfWorkersAndOrder := by
  rintro g₁ g₂ s₁ t₁ u₁ v₁ s₂ t₂ u₂ v₂ n₁ n₂ hopa hopb hmod
    ⟨hinv₁, idle₁, legal₁, hr₁, hexec₁, hf₁, hrun₁, hstep₁, hend₁⟩
    ⟨hinv₂, idle₂, legal₂, hr₂, hexec₂, hf₂, hrun₂, hstep₂, hend₂⟩
  obtain ⟨r₁, href₁, -, hres₁, -⟩ :=
    modexpGivesReferenceValue g₁ s₁ t₁ u₁ v₁ n₁ hinv₁ idle₁ legal₁ hr₁ hexec₁ hf₁ hrun₁ hstep₁ hend₁
  obtain ⟨r₂, href₂, -, hres₂, -⟩ :=
    modexpGivesReferenceValue g₂ s₂ t₂ u₂ v₂ n₂ hinv₂ idle₂ legal₂ hr₂ hexec₂ hf₂ hrun₂ hstep₂ hend₂
  rw [hopa, hopb, hmod, href₂] at href₁
  rw [hres₁, hres₂, Option.some.inj href₁]

/-- Settles O24: the controller's turn is the completion when every lane of the command is COMBINED, and changes
nothing otherwise. -/
theorem modexpCompletion : Obligations.ModexpCompletion := by
  intro s hexp
  refine ⟨fun hall => runTurn_controller_of_exp hexp ((allCombined_iff s).mpr hall), fun t ht hidle => ?_⟩
  rw [← allCombined_iff]
  by_contra hnot
  have hdisabled : controllerEnabled s = false := by simpa [controllerEnabled, hexp] using hnot
  obtain rfl : s = t := Host.Outcome.next.inj ((controllerStep_of_not_enabled hdisabled).symm.trans ht)
  cases hexp.symm.trans hidle

/-- Settles O26: a worker's turn is `State.afterWorker`, and two of them commute. -/
theorem workerStepsCommute : Obligations.WorkerStepsCommute := fun s j k hjk hm =>
  ⟨s.afterWorker j, s.afterWorker k, (s.afterWorker j).afterWorker k, runTurn_worker hm j,
    runTurn_worker (s := s.afterWorker j) hm k, runTurn_worker hm k,
    afterWorker_comm hm hjk ▸ runTurn_worker (s := s.afterWorker k) hm j⟩

/-- Settles O27: the leaves have the product of the partial products modulo m, and the root, which is a node or the
leaf 1 mod m, is reduced. -/
theorem collectiveReductionAgrees : Obligations.CollectiveReductionAgrees := by
  intro m lrs tree hm hperm
  obtain ⟨v, hroot, hmod⟩ := tree.root_modEq hm
  have hlt : v.toNat < m.toNat := by
    obtain hleaf | hlt := ReduceTree.root_reduced hroot
    · rw [hleaf] at hperm
      obtain ⟨rfl, -⟩ := List.cons.inj (List.singleton_perm.mp hperm)
      exact Nat.mod_lt _ (toNat_pos_of_ne_zero hm)
    · exact hlt
  have hprod : v.toNat ≡ (lrs.map BitVec.toNat).prod [MOD m.toNat] := by
    refine hmod.trans ?_
    rw [(hperm.map BitVec.toNat).prod_eq, List.map_cons, List.prod_cons, BitVec.toNat_umod]
    simpa using (Nat.mod_modEq 1 m.toNat).mul_right (lrs.map BitVec.toNat).prod
  exact ⟨v, hroot, (Nat.mod_eq_of_lt hlt).symm.trans hprod⟩

/-- Settles O40: a step moves one lane at most, forward, and acc takes the partial product of a lane that becomes
COMBINED. -/
theorem contributionsAreAppliedOnce : Obligations.ContributionsAreAppliedOnce := by
  intro s t hok hexp h hend
  have heff := step_lanesEffect h hok hexp hend
  refine ⟨fun k l hl => heff.forward hl, fun j k l l' hjk hl hl' hready hcombined => ?_, heff.acc_kept_or_combined⟩
  refine heff.others_kept hjk fun hsame => ?_
  obtain rfl : l' = l := Option.some.inj (hl'.symm.trans (hsame.trans hl))
  cases hready.symm.trans hcombined

/-- Settles O23: the worker's turn is COMBINE, and 1 is neutral for a reduced acc. -/
theorem combineStep : Obligations.CombineStep := by
  intro s k l hl hready hexp hm
  have hval := mulReduce_toNat s.acc l.lr hm
  refine ⟨mulReduce s.acc l.lr s.lat.m, hval, fun hone hlt => ?one, ?turn⟩
  case one =>
    apply BitVec.eq_of_toNat_eq
    rw [hval, hone]
    simp [Nat.mod_eq_of_lt hlt]
  case turn => exact runTurn_worker_combine hl hm (by simp [laneAction, hready, hexp])

end Sys2Proof.Proofs

/-! SUPPORT. Proofs about the control commands: the overrun, CLEAR and the reserved codes, who clears OVR, and what
the registers read as (43_control.md R140 to R144). -/

namespace Sys2Proof.Machine

/-! What a command does, by BUSY and by its code (R140, R141, R144). -/

/-- R73, R144: every command written while busy is an overrun, whatever its code. -/
theorem exec_of_busy {s : State} (busy : s.status.busy = true) (i : Instr) : exec i s = .next (overrun s) := by
  cases i <;> exact issue_busy _ busy

theorem busWrite_ctrl_of_busy {s : State} (busy : s.status.busy = true) (v : Word) :
    busWrite .ctrl v s = .next (overrun (s.setTrace (s.trace ++ [.wrote .ctrl v]))) :=
  exec_of_busy (s := s.setTrace (s.trace ++ [BusEvent.wrote .ctrl v])) busy (decodeWord v)

/-- R140: CLEAR leaves BUSY alone of STATUS, so in an idle block STATUS becomes 0. -/
theorem Status.cleared_of_idle {st : Status} (idle : st.busy = false) :
    st.cleared = { busy := false, done := false, err := false, ovr := false, errcode := 0 } := by
  rw [Status.cleared, idle]

/-- R140: CLEAR written while idle. -/
theorem exec_clear_of_idle {s : State} (idle : s.status.busy = false) (ign : BitVec 60) :
    exec (.clear ign) s = .next (doClear s) := issue_idle doClear idle

/-- R141: a code of 3 or more, written while idle, is reserved. -/
theorem exec_reserved_of_idle {s : State} (idle : s.status.busy = false) {i : Instr} (reserved : 3#4 ≤ i.code) :
    exec i s = .next (illegalCommand s) := by
  cases i with
  | clear => exact absurd reserved (show ¬3#4 ≤ 0#4 by decide)
  | modmul => exact absurd reserved (show ¬3#4 ≤ 1#4 by decide)
  | modexp => exact absurd reserved (show ¬3#4 ≤ 2#4 by decide)
  | _ => exact issue_idle illegalCommand idle

/-! OVR stays until CLEAR or reset (R144). -/

/-- A written code of 0 is a CLEAR. -/
theorem WroteCode.clear {s t : State} (h : WroteCode s t fun c => c = 0#4) :
    ∃ v g, t.trace = s.trace ++ [.wrote .ctrl v] ∧ decodeWord v = .clear g := by
  obtain ⟨v, ht, hc⟩ := h
  obtain ⟨g, hg⟩ := (code_eq_zero_iff _).mp ((code_decodeWord v).trans hc)
  exact ⟨v, g, ht, hg⟩

/-- Of the changes of STATUS, the reset and CLEAR alone take OVR from 1 to 0. -/
theorem StatusChange.reset_or_clear_of_ovr {s t : State} (h : StatusChange s t) (hs : s.status.ovr = true)
    (ht : t.status.ovr = false) : s.resetNext ∨ WroteCode s t fun c => c = 0#4 := by
  have changed : t.status.ovr ≠ s.status.ovr := by simp [hs, ht]
  cases h with
  | reset hr => exact .inl hr
  | cleared _ hw => exact .inr hw
  | overran _ _ hst => simp [hst, Status.overran] at ht
  | kept hst => exact absurd (hst ▸ rfl) changed
  | failed _ _ _ _ hst => exact absurd (hst ▸ rfl) changed
  | accepted _ _ hst => exact absurd (hst ▸ rfl) changed
  | completed _ hst => exact absurd (hst ▸ rfl) changed

/-! What STATUS reads as (R142). -/

/-- R22, R142: each field of STATUS is read at its own place, with 0 above them. -/
theorem Status.toNat_toWord (st : Status) :
    st.toWord.toNat = st.busy.toNat + 2 * st.done.toNat + 4 * st.err.toNat + 8 * st.ovr.toNat +
      16 * st.errcode.toNat := by
  simp only [Status.toWord, toNat_append_eq_add, BitVec.toNat_ofBool, BitVec.ofNat_eq_ofNat, BitVec.toNat_ofNat]
  omega

end Sys2Proof.Machine

namespace Sys2Proof.Proofs
open Sys2Proof.Machine

/-- Settles O7: a busy block takes the write as an overrun, and of the changes of STATUS only the reset and a CLEAR
clear OVR. -/
theorem writesWhileBusyAreDropped : Obligations.WritesWhileBusyAreDropped :=
  ⟨fun v _ busy => busWrite_ctrl_of_busy busy v,
    fun _ _ hs h ht => ((step_statusChange h).reset_or_clear_of_ovr hs ht).imp_right WroteCode.clear⟩

/-- Settles O5: an idle block clears STATUS, a busy one takes the write as an overrun. -/
theorem clearClearsStatus : Obligations.ClearClearsStatus := fun ign s =>
  ⟨fun idle => by rw [exec_clear_of_idle idle, doClear, Status.cleared_of_idle idle, State.setStatus],
    fun busy => exec_of_busy busy _⟩

/-- Settles O6: the thirteen codes are 3 and more, so the command is the error entry in an idle block and an overrun
in a busy one. -/
theorem reservedCodesRaiseIllegalCmd : Obligations.ReservedCodesRaiseIllegalCmd := by
  intro ign s i hi
  have reserved : 3#4 ≤ i.code := by
    revert i
    simp [Instr.code]
  exact ⟨fun idle => exec_reserved_of_idle idle reserved, fun busy => exec_of_busy busy i⟩

/-- Settles O47: STATUS and CONFIG read as their fields put together, the other registers as they are. -/
theorem registerReads : Obligations.RegisterReads := fun s =>
  ⟨rfl, s.status.toNat_toWord, s.config.toNat_toWord.trans (Nat.add_comm _ _),
    BitVec.toNat_setWidth_of_le (by decide), rfl, rfl, rfl, rfl, fun _ _ => rfl⟩

/-- Settles O48: each register's write is one clause of the model's definition. -/
theorem registerWrites : Obligations.RegisterWrites := fun _ _ => ⟨rfl, rfl, rfl, rfl, rfl, rfl, rfl, rfl⟩

end Sys2Proof.Proofs

/-! SUPPORT. Proofs about the errors and the idle block: the error that each bad command records, in the order of the
checks, and what moves the controller from IDLE (60_exceptions.md R152 to R154, R162). -/

namespace Sys2Proof.Machine

/-! The error entry of an idle block, check by check (R152, R154). -/

section
variable {s : State} (idle : s.status.busy = false)
include idle

theorem exec_modmul_of_mod_zero (hm : s.mod = 0#64) (ign : BitVec 60) :
    exec (.modmul ign) s = .next (raiseError .zeroModulus s) :=
  (issue_idle acceptModmul idle).trans (congrArg _ (if_pos hm))

theorem exec_modexp_of_mod_zero (hm : s.mod = 0#64) (ign : BitVec 60) :
    exec (.modexp ign) s = .next (raiseError .zeroModulus s) :=
  (issue_idle acceptModexp idle).trans (congrArg _ (if_pos hm))

theorem exec_modexp_of_workers_zero (hm : s.mod ≠ 0#64) (hw : s.config.w = 0#8) (ign : BitVec 60) :
    exec (.modexp ign) s = .next (raiseError .zeroWorkers s) :=
  (issue_idle acceptModexp idle).trans (congrArg _ ((if_neg hm).trans (if_pos hw)))

theorem exec_modexp_of_config_bad (hm : s.mod ≠ 0#64) (hw : s.config.w ≠ 0#8)
    (hbad : s.caps < s.config.w ∨ s.config.part = 3#2) (ign : BitVec 60) :
    exec (.modexp ign) s = .next (raiseError .badConfig s) :=
  (issue_idle acceptModexp idle).trans
    (congrArg _ ((if_neg hm).trans ((if_neg hw).trans (if_pos hbad))))

end

/-! The way out of IDLE (R162). -/

/-- Of the changes of STATUS, acceptance alone takes the controller from IDLE, and acceptance writes CTRL. -/
theorem StatusChange.wroteCode_of_leaves_idle {s t : State} (h : StatusChange s t) (hs : s.eng = .idle)
    (ht : t.eng ≠ .idle) : WroteCode s t fun c => c = 1#4 ∨ c = 2#4 := by
  have moved : t.eng ≠ s.eng := hs ▸ ht
  cases h with
  | accepted _ hw => exact hw
  | reset _ _ heng => exact absurd heng ht
  | completed busy => exact absurd hs busy
  | kept _ heng => exact absurd heng moved
  | overran _ _ _ heng => exact absurd heng moved
  | cleared _ _ _ heng => exact absurd heng moved
  | failed _ _ _ _ _ heng => exact absurd heng moved

end Sys2Proof.Machine

namespace Sys2Proof.Proofs
open Sys2Proof.Machine

/-- Settles O10: the code of the word names the command, whose first check that fails names the error. -/
theorem errorsAreRecordedInPriorityOrder : Obligations.ErrorsAreRecordedInPriorityOrder := by
  intro v s idle failed
  rw [← code_decodeWord v]
  refine ⟨fun reserved => exec_reserved_of_idle idle reserved, fun code hm => ?modmul, fun code hm => ?modulus,
    fun code hm hw => ?workers, fun code hm hw hbad => ?config⟩
  case modmul =>
    obtain ⟨ign, hi⟩ := (code_eq_one_iff _).mp code
    exact hi ▸ exec_modmul_of_mod_zero idle hm ign
  all_goals obtain ⟨ign, hi⟩ := (code_eq_two_iff _).mp code
  case modulus => exact hi ▸ exec_modexp_of_mod_zero idle hm ign
  case workers => exact hi ▸ exec_modexp_of_workers_zero idle hm hw ign
  case config => exact hi ▸ exec_modexp_of_config_bad idle hm hw hbad ign

/-- Settles O42: the changes of STATUS, one by one, say what becomes of eng. -/
theorem onlyACtrlWriteLeavesIdle : Obligations.OnlyACtrlWriteLeavesIdle := by
  intro s t hs h ht
  obtain ⟨v, htrace, -⟩ := (step_statusChange h).wroteCode_of_leaves_idle hs ht
  exact ⟨v, htrace⟩

end Sys2Proof.Proofs

/-! SUPPORT. Proofs about reset and hazards: the reset state and the reset input, the agents that a command in flight
keeps enabled, its completion under fair turns, and two machines that differ in unspecified state alone
(70_reset_and_hazards.md R180, R181, R189). -/

namespace Sys2Proof.Machine

/-! The agents of the block while a command is in flight (R189). -/

/-- A used lane that is not COMBINED has a step enabled while a MODEXP runs. -/
theorem Lane.Ok.laneAction_isSome {lat : Latches} {k : Nat} {l : Lane} (h : Lane.Ok lat k l) (hk : k < lat.w.toNat)
    (hne : l.ph ≠ .combined) : (laneAction .exp l).isSome = true := by
  cases hph : l.ph with
  | off => exact absurd (h.unusedOff.mp hph) (not_le.mpr hk)
  | combined => exact absurd hph hne
  | ready => simp [laneAction, hph]
  | run =>
    obtain ⟨i, hmin, hle⟩ := h.runningHasNext hph
    rcases hle.lt_or_eq with hlt | rfl
    · simp [laneAction_of_lt hph hmin hlt]
    · simp [laneAction_of_eq hph hmin]

theorem State.Inv.enabled_of_exp {s : State} (h : s.Inv) (hexp : s.eng = .exp) :
    controllerEnabled s = true ∨ ∃ k < s.lat.w.toNat, workerEnabled s k = true := by
  by_cases hc : allCombined s = true
  · exact .inl (by simp [controllerEnabled, hexp, hc])
  · obtain ⟨k, hk, l, hl, hne⟩ : ∃ k < s.lat.w.toNat, ∃ l, s.lanes[k]? = some l ∧ l.ph ≠ .combined := by
      simpa [allCombined_iff] using hc
    have haction := (h.lanes.laneOk hexp k l hl).laneAction_isSome hk hne
    exact .inr ⟨k, hk, by simpa [workerEnabled, hl, hexp] using haction⟩

end Sys2Proof.Machine

namespace Sys2Proof.Proofs
open Sys2Proof.Machine

/-- Settles O45: a MODMUL waits for the controller alone, and a MODEXP for a lane that is not COMBINED or, when there
is none, for the controller. -/
theorem noDeadlockWhileBusy : Obligations.NoDeadlockWhileBusy := by
  intro s hs busy
  cases heng : s.eng with
  | idle => exact absurd heng busy
  | mul => exact .inl (by simp [controllerEnabled, heng])
  | exp => exact hs.enabled_of_exp heng

/-- Settles O35: the reset state is the one the reset input leaves, whose lanes are OFF and at least one. -/
theorem machineInvariantAtReset : Obligations.MachineInvariantAtReset := by
  obtain ⟨-, -, -, -, -, -, -, -, hpos, -⟩ := resetRegisterValues
  exact applyReset_inv (s := State.reset) ⟨hpos, List.length_replicate⟩

/-- Settles O54: the turn is the reset input, which writes the reset values. -/
theorem resetAtAnyTime : Obligations.ResetAtAnyTime := by
  intro s rest hturns
  have hoff : ∀ l ∈ (applyReset (s.setTurns rest)).lanes, l.ph = .off := by simp [applyReset, Lane.atReset]
  have hregs : ∀ r, r ≠ .caps → readRegister r (applyReset (s.setTurns rest)) = readRegister r State.reset := by
    intro r hr
    cases r with
    | caps => exact absurd rfl hr
    | _ => rfl
  exact ⟨_, step_eq_of_turns hturns, hregs, rfl, rfl, List.length_replicate, hoff, rfl, rfl, State.work_of_idle rfl,
    rfl, rfl, rfl, rfl, rfl⟩

end Sys2Proof.Proofs

namespace Sys2Proof.Machine

/-! What an access does (20_memory.md R53, R55, R56). -/

/-- What an access does, in every state alike (R53, R55, R56, 43_control.md R143). -/
inductive AccessMeaning (a : BusAccess) : Prop
  | elsewhere (h : ∀ s, busAccess a s = .next s)
  | refused (kind : BusFaultKind) (h : ∀ s, busAccess a s = .fault (.bus kind))
  | read (r : Reg) (h : ∀ s, busAccess a s = busRead r (.reg r) s)
  | write (r : Reg) (v : Word) (h : ∀ s, busAccess a s = busWrite r v s)

theorem busAccess_meaning (a : BusAccess) : AccessMeaning a := by
  cases a with
  | read off width =>
    cases h : admission off width with
    | elsewhere => exact .elsewhere fun s => (busAccess_of_elsewhere h 0 s).1
    | refused kind => exact .refused kind fun s => (busAccess_of_refused h 0 s).1
    | admitted r => exact .read r fun s => (busAccess_of_admitted h 0 s).1
  | write off width v =>
    cases h : admission off width with
    | elsewhere => exact .elsewhere fun s => (busAccess_of_elsewhere h v s).2
    | refused kind => exact .refused kind fun s => (busAccess_of_refused h v s).2
    | admitted r => exact .write r v fun s => (busAccess_of_admitted h v s).2

/-! The turns of the host while a command is in flight: none of them touches the command (43_control.md R144). -/

/-- What a command in flight consists of is the same in two machines, but for acc. -/
structure CommandKept (s t : State) : Prop where
  eng : t.eng = s.eng
  lat : t.lat = s.lat
  lanes : t.lanes = s.lanes

theorem CommandKept.refl (s : State) : CommandKept s s := ⟨rfl, rfl, rfl⟩

theorem CommandKept.work {s t : State} (h : CommandKept s t) : t.work = s.work := by
  simp only [State.work, h.eng, h.lanes]

section
variable {s t : State} (busy : s.status.busy = true)
include busy

theorem busWrite_commandKept {r : Reg} {v : Word} (h : busWrite r v s = .next t) : CommandKept s t := by
  cases r with
  | ctrl =>
    cases (busWrite_ctrl_of_busy busy v).symm.trans h
    exact ⟨rfl, rfl, rfl⟩
  | _ => cases h; exact ⟨rfl, rfl, rfl⟩

theorem busAccess_commandKept {a : BusAccess} (h : busAccess a s = .next t) : CommandKept s t := by
  cases busAccess_meaning a with
  | elsewhere ha => cases (ha s).symm.trans h; exact .refl s
  | refused kind ha => cases (ha s).symm.trans h
  | read r ha => cases (ha s).symm.trans h; exact ⟨rfl, rfl, rfl⟩
  | write r v ha => exact busWrite_commandKept busy ((ha s).symm.trans h)

theorem runLine_commandKept {line : ScriptLine} (h : runLine line s = .next t) : CommandKept s t := by
  cases line with
  | wr r e => exact busWrite_commandKept busy h
  | access a => exact busAccess_commandKept busy h
  | ifGoto c l =>
    cases (runLine_ifGoto c l s).symm.trans h
    split <;> exact ⟨rfl, rfl, rfl⟩
  | _ => cases h; exact ⟨rfl, rfl, rfl⟩

theorem hostStep_commandKept (h : hostStep s = .next t) : CommandKept s t := by
  cases hline : s.script[s.scriptPos]? with
  | none =>
    cases (hostStep_of_not_enabled (by simp [hostEnabled, hline])).symm.trans h
    exact .refl s
  | some line =>
    obtain ⟨heng, hlat, hlanes⟩ :=
      runLine_commandKept (s := s.setScriptPos (s.scriptPos + 1)) busy ((hostStep_line hline).symm.trans h)
    exact ⟨heng, hlat, hlanes⟩

end

/-! A turn while a command is in flight: a step of the command, or none of its agents had one (R114, R189). -/

/-- The turn is one of an agent of the block that has a step enabled. -/
def blockEnabled (s : State) : Turn → Bool
  | .controller => controllerEnabled s
  | .worker k => workerEnabled s k
  | .host | .reset => false

theorem CommandKept.blockEnabled_eq {s t : State} (h : CommandKept s t) (a : Turn) :
    blockEnabled t a = blockEnabled s a := by
  cases a <;> simp only [blockEnabled, controllerEnabled, workerEnabled, allCombined, h.eng, h.lat, h.lanes]

theorem runTurn_of_blockEnabled {s : State} (hs : s.Inv) {a : Turn} (ha : blockEnabled s a = true) :
    ∃ t, runTurn a s = .next t ∧ t.work + 1 = s.work := by
  cases a with
  | controller => exact runTurn_controller_progress hs ha
  | worker k => exact runTurn_worker_progress hs ha
  | host => cases ha
  | reset => cases ha

theorem runTurn_commandKept {s t : State} (busy : s.status.busy = true) {a : Turn} (hreset : a ≠ .reset)
    (ha : blockEnabled s a = false) (h : runTurn a s = .next t) : CommandKept s t := by
  cases a with
  | host => exact hostStep_commandKept busy h
  | controller => cases (controllerStep_of_not_enabled ha).symm.trans h; exact .refl s
  | worker k => cases (workerStep_of_not_enabled ha).symm.trans h; exact .refl s
  | reset => exact absurd rfl hreset

theorem State.work_pos {s : State} (busy : s.eng ≠ .idle) : 0 < s.work := by
  cases heng : s.eng with
  | idle => exact absurd heng busy
  | mul => simp [State.work_of_mul heng]
  | exp => simp [State.work_of_exp heng]

/-! A command in flight under decided turns (R189). -/

/-- A command is in flight in a sound machine with `caps` lanes, these turns decided, and no access of the host
refused. -/
structure Underway (caps : BitVec 8) (turns : List Turn) (s : State) : Prop where
  inv : s.Inv
  busy : s.eng ≠ .idle
  admitted : s.AccessesAdmitted
  caps : s.caps = caps
  turns : s.turns = turns

/-- The command in flight has completed. -/
def State.Completed (s : State) : Prop := s.eng = .idle ∧ s.status.busy = false ∧ s.status.done = true

/-- Within `n` steps a state is reached in which the command in flight has completed. -/
def CompletesWithin (n : Nat) (s : State) : Prop :=
  ∃ m ≤ n, ∃ t, Sys2Proof.core.run m s = .next t ∧ t.Completed

theorem CompletesWithin.of_step {n : Nat} {s t : State} (hs : step s = .next t) (h : CompletesWithin n t) :
    CompletesWithin (n + 1) s := by
  obtain ⟨m, hm, u, hrun, hu⟩ := h
  exact ⟨m + 1, Nat.succ_le_succ hm, u, (run_succ m hs).trans hrun, hu⟩

/-- Without reset, a command leaves eng by its completion. -/
theorem completed_of_step {s t : State} (h : step s = .next t) (busy : s.eng ≠ .idle) (hr : ¬s.resetNext)
    (hend : t.eng = .idle) : t.Completed := by
  have hst : t.status = s.status.completed := by
    cases heng : s.eng with
    | idle => exact absurd heng busy
    | mul =>
      obtain ⟨-, hst⟩ := step_ends_mul h heng hr hend
      exact hst
    | exp =>
      obtain ⟨-, -, hst⟩ := step_ends_exp h heng hr hend
      exact hst
  exact ⟨hend, by rw [hst]; rfl, by rw [hst]; rfl⟩

@[simp] theorem writeRegister_script (r : Reg) (v : Word) (s : State) : (writeRegister r v s).script = s.script := by
  cases r <;> rfl

theorem Move.script {s t : State} (h : Move s t) : t.script = s.script := by
  cases h with
  | hostOnly hw => exact hw.script
  | write r v _ hw => exact (writeRegister_script r v _).trans hw.script
  | command v hw _ hx => exact (exec_issued hx).frame.script.trans hw.script
  | _ => rfl

/-- The machine goes on, because the host's accesses are the only ones that could stop it. -/
theorem Underway.goes_on {c : BitVec 8} {turns : List Turn} {s : State} (h : Underway c turns s) :
    ∃ t, step s = .next t := by
  obtain hnext | ⟨a, kind, hline, -, hrefused⟩ := step_stopsOnlyRefused h.inv
  · exact hnext
  · exact absurd (hrefused s) (h.admitted a (List.mem_of_getElem? hline) s kind)

/-- A turn completes the command, takes a step off its work, or was of no agent of the block with a step enabled. -/
theorem Underway.step {c : BitVec 8} {a : Turn} {rest : List Turn} {s : State} (h : Underway c (a :: rest) s)
    (ha : a ≠ .reset) :
    ∃ t, step s = .next t ∧ (t.Completed ∨ Underway c rest t ∧
      (t.work + 1 = s.work ∨ blockEnabled s a = false ∧ CommandKept s t)) := by
  obtain ⟨t, ht⟩ := h.goes_on
  have hturn : runTurn a (s.setTurns rest) = .next t := (step_eq_of_turns h.turns).symm.trans ht
  have hmove : Move (s.setTurns rest) t := by
    obtain ⟨hreset, -⟩ | ⟨-, hmove⟩ := runTurn_cases hturn
    · exact absurd hreset ha
    · exact hmove
  refine ⟨t, ht, ?_⟩
  by_cases hend : t.eng = .idle
  · exact .inl (completed_of_step ht h.busy (by simpa [State.resetNext, h.turns] using ha) hend)
  · have hinv : (s.setTurns rest).Inv := (Chosen.setTurns h.turns).block.inv h.inv
    obtain ⟨hcaps, -⟩ := Proofs.capsIsConstant s t ht
    have hscript : t.script = s.script := hmove.script
    have hadmitted : t.AccessesAdmitted := by simpa only [State.AccessesAdmitted, hscript] using h.admitted
    refine .inr ⟨⟨Proofs.machineInvariantKept s t h.inv ht, hend, hadmitted, hcaps.trans h.caps, hmove.turns⟩, ?_⟩
    have hkept : CommandKept s (s.setTurns rest) := ⟨rfl, rfl, rfl⟩
    rw [← hkept.blockEnabled_eq]
    cases hen : blockEnabled (s.setTurns rest) a with
    | true =>
      obtain ⟨_, hnext, hwork⟩ := runTurn_of_blockEnabled hinv hen
      cases hnext.symm.trans hturn
      exact .inl hwork
    | false =>
      obtain ⟨heng, hlat, hlanes⟩ :=
        runTurn_commandKept (s := s.setTurns rest) (h.inv.engine.mp h.busy) ha hen hturn
      exact .inr ⟨rfl, heng, hlat, hlanes⟩

/-- A round gives the controller and every worker a turn, and has no reset (log 21). -/
def FairRound (c : BitVec 8) (round : List Turn) : Prop :=
  Turn.reset ∉ round ∧ Turn.controller ∈ round ∧ ∀ k < c.toNat, Turn.worker k ∈ round

/-- In a fair round an agent of the block with a step enabled has a turn. -/
theorem Underway.exists_blockEnabled {c : BitVec 8} {turns round : List Turn} {s : State} (h : Underway c turns s)
    (hround : FairRound c round) : ∃ a ∈ round, blockEnabled s a = true := by
  obtain ⟨-, hcontroller, hworkers⟩ := hround
  obtain ⟨-, hfit⟩ := h.inv.fitted
  obtain hen | ⟨k, -, hen⟩ := Proofs.noDeadlockWhileBusy s h.inv h.busy
  · exact ⟨.controller, hcontroller, hen⟩
  · have hk : k < s.caps.toNat := hfit ▸ lt_length_of_workerEnabled hen
    exact ⟨.worker k, hworkers k (h.caps ▸ hk), hen⟩

/-- The rest of a round, where the rounds after it are enough for the work left, or for all of it but one step while an
agent of the block with a step enabled has its turn still in this round. -/
theorem Underway.completes_after_round {c : BitVec 8} {rounds : List (List Turn)}
    (hrounds : ∀ s, Underway c rounds.flatten s → s.work ≤ rounds.length → CompletesWithin rounds.flatten.length s)
    {round : List Turn} (hreset : Turn.reset ∉ round) {s : State} (h : Underway c (round ++ rounds.flatten) s)
    (hwork : s.work ≤ rounds.length ∨
      s.work ≤ rounds.length + 1 ∧ ∃ a ∈ round, blockEnabled s a = true) :
    CompletesWithin (round ++ rounds.flatten).length s := by
  induction round generalizing s with
  | nil => exact hrounds s h (by simpa using hwork)
  | cons a rest ih =>
    obtain ⟨ha, hrest⟩ : Turn.reset ≠ a ∧ Turn.reset ∉ rest := by simpa using hreset
    obtain ⟨t, ht, hcompleted | ⟨hun, hstep⟩⟩ := h.step ha.symm
    · exact CompletesWithin.of_step ht ⟨0, Nat.zero_le _, t, run_zero t, hcompleted⟩
    refine CompletesWithin.of_step ht (ih hrest hun ?_)
    obtain hless | ⟨hdisabled, hkept⟩ := hstep
    · left
      omega
    · rw [hkept.work]
      refine hwork.imp_right fun ⟨hle, b, hb, hen⟩ => ⟨hle, b, ?_, (hkept.blockEnabled_eq b).trans hen⟩
      rcases List.mem_cons.mp hb with rfl | hb
      · cases hdisabled.symm.trans hen
      · exact hb

/-- As many fair rounds as the command has steps left complete it. -/
theorem Underway.completes {c : BitVec 8} {rounds : List (List Turn)} (hfair : ∀ r ∈ rounds, FairRound c r) {s : State}
    (h : Underway c rounds.flatten s) (hwork : s.work ≤ rounds.length) :
    CompletesWithin rounds.flatten.length s := by
  induction rounds generalizing s with
  | nil => exact absurd hwork (not_le.mpr (State.work_pos h.busy))
  | cons round rounds ih =>
    obtain ⟨hround, hrounds⟩ := List.forall_mem_cons.mp hfair
    have henabled := h.exists_blockEnabled hround
    obtain ⟨hreset, -⟩ := hround
    exact Underway.completes_after_round (fun _ => ih hrounds) hreset h (.inr ⟨hwork, henabled⟩)

end Sys2Proof.Machine

namespace Sys2Proof.Proofs
open Sys2Proof.Machine

/-- Settles O46: in each round an agent of the block with a step enabled keeps it until its turn, which takes a step
off the work. -/
theorem fairTurnsComplete : Obligations.FairTurnsComplete := by
  intro s rounds hinv busy hadmitted hturns hfair hwork
  have hcompletes := Underway.completes hfair ⟨hinv, busy, hadmitted, rfl, hturns⟩ hwork
  rwa [← hturns] at hcompletes

end Sys2Proof.Proofs

namespace Sys2Proof.Machine

/-! Two machines that agree where the spec defines the state (10_state.md R31, R33, R34). -/

/-- Of what a step reads, all that lies outside latches, acc and lanes is the same in the two machines. -/
structure SameElsewhere (s u : State) : Prop where
  status : u.status = s.status
  config : u.config = s.config
  caps : u.caps = s.caps
  mod : u.mod = s.mod
  opa : u.opa = s.opa
  opb : u.opb = s.opb
  eng : u.eng = s.eng
  script : u.script = s.script
  scriptPos : u.scriptPos = s.scriptPos
  trace : u.trace = s.trace
  turns : u.turns = s.turns
  draws : u.draws = s.draws

theorem AgreeWhereDefined.same {s u : State} (h : AgreeWhereDefined s u) : SameElsewhere s u := by
  rw [h.rest]
  exact ⟨rfl, rfl, rfl, rfl, rfl, rfl, rfl, rfl, rfl, rfl, rfl, rfl⟩

theorem AgreeWhereDefined.refl (s : State) : AgreeWhereDefined s s where
  rest := rfl
  phases := rfl
  activeLanes _ _ hl _ := hl
  mulLatches _ := ⟨rfl, rfl, rfl⟩
  expLatches _ := ⟨rfl, fun _ => rfl, rfl⟩

theorem AgreeWhereDefined.readRegister_eq {s u : State} (h : AgreeWhereDefined s u) (r : Reg) :
    readRegister r u = readRegister r s := by
  rw [h.rest]
  cases r <;> rfl

theorem AgreeWhereDefined.lanes_length {s u : State} (h : AgreeWhereDefined s u) :
    u.lanes.length = s.lanes.length := by
  simpa using congrArg List.length h.phases

/-- Each lane has its counterpart, in the same phase. -/
theorem AgreeWhereDefined.lane {s u : State} (h : AgreeWhereDefined s u) {k : Nat} {l : Lane}
    (hl : s.lanes[k]? = some l) : ∃ l', u.lanes[k]? = some l' ∧ l'.ph = l.ph := by
  have hphase : u.lanes[k]?.map Lane.ph = s.lanes[k]?.map Lane.ph := by
    rw [← List.getElem?_map, ← List.getElem?_map, h.phases]
  simpa [hl] using hphase

/-- Only a RUN or READY lane has a step. -/
theorem active_of_laneAction {e : Eng} {l : Lane} {a : WorkerAction} (h : laneAction e l = some a) :
    l.ph = .run ∨ l.ph = .ready := by
  cases a with
  | square => exact .inl (laneAction_square h).1
  | absorb => exact .inl (laneAction_absorb h).1
  | combine => exact .inr (laneAction_combine h).1

theorem laneAction_of_passive {e : Eng} {l : Lane} (h : ¬(l.ph = .run ∨ l.ph = .ready)) : laneAction e l = none :=
  Option.eq_none_iff_forall_ne_some.mpr fun _ ha => h (active_of_laneAction ha)

theorem exists_action_of_workerEnabled {s : State} {k : Nat} (h : workerEnabled s k = true) :
    ∃ l a, s.lanes[k]? = some l ∧ laneAction s.eng l = some a := by
  unfold workerEnabled at h
  split at h
  next => cases h
  next l hl =>
    obtain ⟨a, ha⟩ := Option.isSome_iff_exists.mp h
    exact ⟨l, a, hl, ha⟩

/-! Updates that neither read nor write what may be unspecified, and leave eng or make it IDLE. -/

/-- The update goes past latches, acc and lanes, whatever they are. -/
structure PassesUnspecified (f : State → State) : Prop where
  commutes : ∀ (s : State) (lat : Latches) (acc : Word) (lanes : List Lane),
    f { s with lat := lat, acc := acc, lanes := lanes } = { f s with lat := lat, acc := acc, lanes := lanes }
  eng : ∀ s : State, (f s).eng = s.eng ∨ (f s).eng = .idle

theorem AgreeWhereDefined.map {s u : State} (h : AgreeWhereDefined s u) {f : State → State}
    (hf : PassesUnspecified f) : AgreeWhereDefined (f s) (f u) := by
  have hs := hf.commutes s s.lat s.acc s.lanes
  have hu : f u = { f s with lat := u.lat, acc := u.acc, lanes := u.lanes } :=
    (congrArg f h.rest).trans (hf.commutes s u.lat u.acc u.lanes)
  have heng {e : Eng} (he : (f s).eng = e) (hne : e ≠ .idle) : s.eng = e :=
    (hf.eng s).elim (fun hsame => hsame.symm.trans he) fun hidle => absurd (he.symm.trans hidle) hne
  have hslat : (f s).lat = s.lat := (congrArg State.lat hs :)
  have hsacc : (f s).acc = s.acc := (congrArg State.acc hs :)
  have hslanes : (f s).lanes = s.lanes := (congrArg State.lanes hs :)
  rw [hu]
  exact {
    rest := rfl
    phases := hslanes ▸ h.phases
    activeLanes := hslanes ▸ h.activeLanes
    mulLatches := fun he => hslat ▸ h.mulLatches (heng he (by decide))
    expLatches := fun he => hslat ▸ hsacc ▸ h.expLatches (heng he (by decide)) }

theorem setTurns_passes (turns : List Turn) : PassesUnspecified fun s => s.setTurns turns :=
  ⟨fun _ _ _ _ => rfl, fun _ => .inl rfl⟩

theorem setDraws_passes (n : Nat) : PassesUnspecified fun s => s.setDraws n :=
  ⟨fun _ _ _ _ => rfl, fun _ => .inl rfl⟩

theorem setScriptPos_passes (n : Nat) : PassesUnspecified fun s => s.setScriptPos n :=
  ⟨fun _ _ _ _ => rfl, fun _ => .inl rfl⟩

theorem log_passes (e : BusEvent) : PassesUnspecified fun s => s.setTrace (s.trace ++ [e]) :=
  ⟨fun _ _ _ _ => rfl, fun _ => .inl rfl⟩

theorem writeRegister_passes (r : Reg) (v : Word) : PassesUnspecified (writeRegister r v) := by
  cases r <;> exact ⟨fun _ _ _ _ => rfl, fun _ => .inl rfl⟩

theorem overrun_passes : PassesUnspecified overrun := ⟨fun _ _ _ _ => rfl, fun _ => .inl rfl⟩

theorem doClear_passes : PassesUnspecified doClear := ⟨fun _ _ _ _ => rfl, fun _ => .inl rfl⟩

theorem raiseError_passes (c : ErrorCode) : PassesUnspecified (raiseError c) :=
  ⟨fun _ _ _ _ => rfl, fun _ => .inl rfl⟩

/-- What the two completions do but for the release of the lanes (40_modmul.md R93, 42_reduction.md R133). -/
theorem complete_passes (r : Word) :
    PassesUnspecified fun s => ((s.setResult r).setStatus s.status.completed).setEng .idle :=
  ⟨fun _ _ _ _ => rfl, fun _ => .inr rfl⟩

theorem AgreeWhereDefined.setAcc {s u : State} (h : AgreeWhereDefined s u) (acc : Word) :
    AgreeWhereDefined (s.setAcc acc) (u.setAcc acc) where
  rest := by rw [h.rest]; rfl
  phases := h.phases
  activeLanes := h.activeLanes
  mulLatches := h.mulLatches
  expLatches he := by
    obtain ⟨hlat, hsets, -⟩ := h.expLatches he
    exact ⟨hlat, hsets, rfl⟩

theorem AgreeWhereDefined.setLanes {s u : State} (h : AgreeWhereDefined s u) {lanes lanes' : List Lane}
    (hphases : lanes'.map Lane.ph = lanes.map Lane.ph)
    (hactive : ∀ (k : Nat) (l : Lane), lanes[k]? = some l → l.ph = .run ∨ l.ph = .ready → lanes'[k]? = some l) :
    AgreeWhereDefined (s.setLanes lanes) (u.setLanes lanes') where
  rest := by rw [h.rest]; rfl
  phases := hphases
  activeLanes := hactive
  mulLatches := h.mulLatches
  expLatches := h.expLatches

/-- The same lane put in the same place. -/
theorem AgreeWhereDefined.setLane {s u : State} (h : AgreeWhereDefined s u) (k : Nat) (l : Lane) :
    AgreeWhereDefined (s.setLanes (s.lanes.set k l)) (u.setLanes (u.lanes.set k l)) := by
  refine h.setLanes (by rw [List.map_set, List.map_set, h.phases]) fun j x hx hactive => ?_
  rw [List.getElem?_set] at hx ⊢
  split
  next heq =>
    rw [if_pos heq] at hx
    rwa [h.lanes_length]
  next hne =>
    rw [if_neg hne] at hx
    exact h.activeLanes j x hx hactive

/-! The results of a step in two such machines. -/

/-- Two answers agree: next states that agree where the spec defines them, or the same fault. -/
inductive ResultsAgree : Result → Result → Prop
  | next {t t' : State} (h : AgreeWhereDefined t t') : ResultsAgree (.next t) (.next t')
  | fault (f : Fault) : ResultsAgree (.fault f) (.fault f)

theorem ResultsAgree.of_next {t : State} {answer : Result} (h : ResultsAgree (.next t) answer) :
    ∃ t', answer = .next t' ∧ AgreeWhereDefined t t' := by
  cases h with
  | next h => exact ⟨_, rfl, h⟩

theorem ResultsAgree.of_fault {f : Fault} {answer : Result} (h : ResultsAgree (.fault f) answer) :
    answer = .fault f := by
  cases h
  rfl

/-! Commands (R73, R92, R105). -/

/-- The chosen subsets are read for PART = 2 alone. -/
theorem assignedSet_congr {lat lat' : Latches} (hlat : lat' = { lat with sets := lat'.sets })
    (hsets : lat.part = 2#2 → lat'.sets = lat.sets) (k : Nat) : assignedSet lat' k = assignedSet lat k := by
  rw [hlat]
  by_cases hpart : lat.part = 2#2
  · rw [hsets hpart]
  · simp only [assignedSet, hpart, if_false]

/-- A lane of the command starts on its set alone, whatever it held (R106). -/
theorem initLane_congr {lat lat' : Latches} (hlat : lat' = { lat with sets := lat'.sets })
    (hsets : lat.part = 2#2 → lat'.sets = lat.sets) {k : Nat} (hk : k < lat.w.toNat) (l l' : Lane) :
    initLane lat' k l' = initLane lat k l := by
  have hset := assignedSet_congr hlat hsets k
  have hk' : k < lat'.w.toNat := by rw [hlat]; exact hk
  rw [initLane_of_lt hk', initLane_of_lt hk, hset, hlat]

theorem initLane_ph_congr {lat lat' : Latches} (hlat : lat' = { lat with sets := lat'.sets })
    (hsets : lat.part = 2#2 → lat'.sets = lat.sets) (k : Nat) (l l' : Lane) :
    (initLane lat' k l').ph = (initLane lat k l).ph := by
  rcases lt_or_ge k lat.w.toNat with hk | hk
  · rw [initLane_congr hlat hsets hk l l']
  · rw [initLane_of_le hk, initLane_of_le (hlat ▸ hk)]

section
variable {s u : State} (h : AgreeWhereDefined s u)
include h

theorem startModmul_agrees : AgreeWhereDefined (startModmul s) (startModmul u) where
  rest := by rw [h.rest]; rfl
  phases := h.phases
  activeLanes := h.activeLanes
  mulLatches _ := ⟨h.same.opa, h.same.opb, h.same.mod⟩
  expLatches he := by cases he

theorem latchModexp_agrees :
    latchModexp u = { latchModexp s with sets := (latchModexp u).sets } ∧
      ((latchModexp s).part = 2#2 → (latchModexp u).sets = (latchModexp s).sets) := by
  rw [h.rest]
  refine ⟨rfl, fun hpart => ?_⟩
  have hconfig : s.config.part = 2#2 := hpart
  simp only [latchModexp, hconfig, if_true]

theorem startModexp_agrees : AgreeWhereDefined (startModexp s) (startModexp u) where
  rest := by rw [h.rest]; rfl
  phases := by
    obtain ⟨hlat, hsets⟩ := latchModexp_agrees h
    apply List.ext_getElem
    · simp [startModexp, h.lanes_length]
    · intro k _ _
      simpa [startModexp] using initLane_ph_congr hlat hsets k _ _
  activeLanes k l hl hactive := by
    obtain ⟨hlat, hsets⟩ := latchModexp_agrees h
    obtain ⟨x, hx, rfl⟩ : ∃ x, s.lanes[k]? = some x ∧ initLane (latchModexp s) k x = l := by
      simpa [startModexp, List.getElem?_mapIdx] using hl
    have hk : k < (latchModexp s).w.toNat := by
      by_contra hle
      simp [initLane_of_le (not_lt.mp hle)] at hactive
    obtain ⟨y, hy, -⟩ := h.lane hx
    simp [startModexp, List.getElem?_mapIdx, hy, initLane_congr hlat hsets hk x y]
  mulLatches he := by cases he
  expLatches _ := by
    obtain ⟨hlat, hsets⟩ := latchModexp_agrees h
    exact ⟨hlat, hsets, by rw [h.rest]; rfl⟩

theorem acceptModmul_agrees : AgreeWhereDefined (acceptModmul s) (acceptModmul u) := by
  unfold acceptModmul
  rw [h.same.mod]
  split
  · exact h.map (raiseError_passes _)
  · exact startModmul_agrees h

theorem acceptModexp_agrees : AgreeWhereDefined (acceptModexp s) (acceptModexp u) := by
  unfold acceptModexp
  rw [h.same.mod, h.same.config, h.same.caps]
  split
  · exact h.map (raiseError_passes _)
  split
  · exact h.map (raiseError_passes _)
  split
  · exact h.map (raiseError_passes _)
  · exact startModexp_agrees h

theorem issue_agrees {accept : State → State} (haccept : AgreeWhereDefined (accept s) (accept u)) :
    ResultsAgree (issue accept s) (issue accept u) := by
  rw [issue_eq, issue_eq, h.same.status]
  split
  · exact .next (h.map overrun_passes)
  · exact .next haccept

theorem exec_agrees (i : Instr) : ResultsAgree (exec i s) (exec i u) := by
  cases i with
  | clear => exact issue_agrees h (h.map doClear_passes)
  | modmul => exact issue_agrees h (acceptModmul_agrees h)
  | modexp => exact issue_agrees h (acceptModexp_agrees h)
  | _ => exact issue_agrees h (h.map (raiseError_passes .illegalCmd))

/-! The host (30_encoding.md R75): its lines see of the block what its registers read as. -/

theorem busRead_agrees (r : Reg) (x : ScriptName) : ResultsAgree (busRead r x s) (busRead r x u) := by
  unfold busRead
  rw [h.readRegister_eq]
  exact .next (h.map (log_passes _))

theorem busWrite_agrees (r : Reg) (v : Word) : ResultsAgree (busWrite r v s) (busWrite r v u) := by
  have hlogged := h.map (log_passes (.wrote r v))
  cases r with
  | ctrl => exact exec_agrees hlogged (decodeWord v)
  | _ => exact .next (hlogged.map (writeRegister_passes _ v))

theorem busAccess_agrees (a : BusAccess) : ResultsAgree (busAccess a s) (busAccess a u) := by
  cases busAccess_meaning a with
  | elsewhere ha => rw [ha, ha]; exact .next h
  | refused kind ha => rw [ha, ha]; exact .fault _
  | read r ha => rw [ha, ha]; exact busRead_agrees h r _
  | write r v ha => rw [ha, ha]; exact busWrite_agrees h r v

theorem runLine_agrees (line : ScriptLine) : ResultsAgree (runLine line s) (runLine line u) := by
  cases line with
  | wr r e =>
    unfold runLine
    rw [h.same.trace]
    exact busWrite_agrees h r _
  | rd r => exact busRead_agrees h r _
  | rdAs r x => exact busRead_agrees h r x
  | ifGoto c l =>
    rw [runLine_ifGoto, runLine_ifGoto, h.same.trace, h.same.script]
    split
    · exact .next (h.map (setScriptPos_passes _))
    · exact .next h
  | access a => exact busAccess_agrees h a
  | label => exact .next h
  | comment => exact .next h

theorem hostStep_agrees : ResultsAgree (hostStep s) (hostStep u) := by
  unfold hostStep
  rw [h.same.script, h.same.scriptPos]
  split
  · exact runLine_agrees (h.map (setScriptPos_passes _)) _
  · exact .next h

/-! The agents of the block: what is unspecified enables and disables nothing. -/

theorem AgreeWhereDefined.allCombined_eq (hexp : s.eng = .exp) : allCombined u = allCombined s := by
  have hphases (s : State) :
      allCombined s = ((s.lanes.map Lane.ph).take s.lat.w.toNat).all fun ph => decide (ph = .combined) := by
    simp [allCombined, ← List.map_take, List.all_map, Function.comp_def]
  obtain ⟨hlat, -⟩ := h.expLatches hexp
  rw [hphases, hphases, h.phases, hlat]

theorem AgreeWhereDefined.controllerEnabled_eq : controllerEnabled u = controllerEnabled s := by
  unfold controllerEnabled
  rw [h.same.eng]
  cases hexp : s.eng with
  | exp => exact h.allCombined_eq hexp
  | _ => rfl

/-- Only a RUN or READY lane has a step, and such lanes are the same. -/
theorem AgreeWhereDefined.workerEnabled_eq (k : Nat) : workerEnabled u k = workerEnabled s k := by
  cases hl : s.lanes[k]? with
  | none =>
    have hl' : u.lanes[k]? = none := by simpa [h.lanes_length] using hl
    simp only [workerEnabled, hl, hl']
  | some l =>
    obtain ⟨l', hl', hph⟩ := h.lane hl
    have haction : laneAction u.eng l' = laneAction s.eng l := by
      rw [h.same.eng]
      by_cases hactive : l.ph = .run ∨ l.ph = .ready
      · rw [Option.some.inj (hl'.symm.trans (h.activeLanes k l hl hactive))]
      · rw [laneAction_of_passive hactive, laneAction_of_passive (hph ▸ hactive)]
    simp only [workerEnabled, hl, hl', haction]

theorem AgreeWhereDefined.hostEnabled_eq : hostEnabled u = hostEnabled s := by
  rw [hostEnabled, h.same.script, h.same.scriptPos, hostEnabled]

theorem AgreeWhereDefined.enabledTurns_eq : enabledTurns u = enabledTurns s := by
  unfold enabledTurns
  rw [h.controllerEnabled_eq, h.hostEnabled_eq, h.lanes_length, funext h.workerEnabled_eq]

theorem AgreeWhereDefined.drawTurn_eq : drawTurn u = drawTurn s := by
  simp only [drawTurn, h.enabledTurns_eq, h.same.draws]

/-! The steps of the block (40_modmul.md R93, 41_modexp.md R107, R108, 42_reduction.md R131, R133). -/

theorem completeModmul_agrees (hmul : s.eng = .mul) : ResultsAgree (completeModmul s) (completeModmul u) := by
  obtain ⟨ha, hb, hm⟩ := h.mulLatches hmul
  unfold completeModmul
  rw [ha, hb, hm]
  split
  · exact .fault _
  · exact .next (h.map (complete_passes _))

theorem completeModexp_agrees (hexp : s.eng = .exp) : AgreeWhereDefined (completeModexp s) (completeModexp u) := by
  obtain ⟨-, -, hacc⟩ := h.expLatches hexp
  have hoff (lanes : List Lane) : (lanes.map Lane.released).map Lane.ph = List.replicate lanes.length .off := by
    simp [Lane.released, Function.comp_def]
  unfold completeModexp
  rw [hacc]
  refine (h.map (complete_passes s.acc)).setLanes (by rw [hoff, hoff, h.lanes_length]) fun k l hl hactive => ?_
  obtain ⟨x, -, rfl⟩ : ∃ x, s.lanes[k]? = some x ∧ x.released = l := by simpa using hl
  simp [Lane.released] at hactive

theorem controllerStep_agrees : ResultsAgree (controllerStep s) (controllerStep u) := by
  unfold controllerStep
  rw [h.same.eng]
  cases heng : s.eng with
  | idle => exact .next h
  | mul => exact completeModmul_agrees h heng
  | exp =>
    simp only [h.allCombined_eq heng]
    split
    · exact .next (completeModexp_agrees h heng)
    · exact .next h

/-- A worker's step reads and writes its own lane, which is RUN or READY, and otherwise a running MODEXP's lat.b, lat.m
and acc. -/
theorem workerStep_agrees (hs : s.Inv) (k : Nat) : ResultsAgree (workerStep k s) (workerStep k u) := by
  cases hen : workerEnabled s k with
  | false =>
    rw [workerStep_of_not_enabled hen, workerStep_of_not_enabled ((h.workerEnabled_eq k).trans hen)]
    exact .next h
  | true =>
    obtain ⟨l, a, hl, ha⟩ := exists_action_of_workerEnabled hen
    have hl' := h.activeLanes k l hl (active_of_laneAction ha)
    have hexp : s.eng = .exp := hs.lanes.exp_of_active hl (ph_ne_off_of_laneAction ha)
    obtain ⟨-, hm, -⟩ := hs.latches.expLatched hexp
    obtain ⟨hlat, -, hacc⟩ := h.expLatches hexp
    have hs' : workerStep k s = .next (s.afterWorker k) := runTurn_worker hm k
    have hu' : workerStep k u = .next (u.afterWorker k) := runTurn_worker (by rwa [hlat]) k
    rw [hs', hu', afterWorker_of_lane hl, afterWorker_of_lane hl', h.same.eng, hacc, hlat]
    exact .next ((h.setAcc _).setLane k _)

theorem runTurn_agrees (hs : s.Inv) (a : Turn) : ResultsAgree (runTurn a s) (runTurn a u) := by
  cases a with
  | host => exact hostStep_agrees h
  | controller => exact controllerStep_agrees h
  | worker k => exact workerStep_agrees h hs k
  | reset =>
    have hreset : applyReset u = applyReset s := by rw [h.rest]; rfl
    exact .next (hreset ▸ .refl _)

theorem step_agrees (hs : s.Inv) : ResultsAgree (step s) (step u) := by
  unfold step
  rw [h.same.turns, h.drawTurn_eq, h.same.draws]
  split
  next a rest hturns =>
    exact runTurn_agrees (h.map (setTurns_passes rest)) ((Chosen.setTurns hturns).block.inv hs) a
  next hturns =>
    split
    next a _ => exact runTurn_agrees (h.map (setDraws_passes _)) ((Chosen.setDraws _ hturns).block.inv hs) a
    next => exact .next h

end

/-- R31, R33, R34: with eng IDLE and every lane OFF, latches, acc and the data of the lanes are unspecified. -/
theorem agreeWhereDefined_of_idle {s : State} (hidle : s.eng = .idle) {lanes : List Lane}
    (hlength : lanes.length = s.lanes.length) (hs : ∀ l ∈ s.lanes, l.ph = .off) (hoff : ∀ l ∈ lanes, l.ph = .off)
    (lat : Latches) (acc : Word) : AgreeWhereDefined s { s with lat := lat, acc := acc, lanes := lanes } where
  rest := rfl
  phases := by
    rw [List.map_eq_replicate_iff.mpr hoff, List.map_eq_replicate_iff.mpr hs, hlength]
  activeLanes k l hl hactive := by simp [hs l (List.mem_of_getElem? hl)] at hactive
  mulLatches he := by simp [hidle] at he
  expLatches he := by simp [hidle] at he

end Sys2Proof.Machine

namespace Sys2Proof.Proofs
open Sys2Proof.Machine

/-- Settles O55: after reset nothing of latches, acc and lanes is specified but that the lanes are OFF, and a step
reads of them only what agrees. -/
theorem unspecifiedStateIsNeverRead : Obligations.UnspecifiedStateIsNeverRead := by
  refine ⟨fun lat acc lanes hlength hoff => ?atReset, fun s u hs h => ?step⟩
  case atReset =>
    exact agreeWhereDefined_of_idle (s := State.reset) rfl (hlength.trans List.length_replicate.symm)
      (by simp [State.reset, Lane.atReset]) hoff lat acc
  case step =>
    have hstep := step_agrees h hs
    exact ⟨h.readRegister_eq, fun t ht => (ht ▸ hstep).of_next, fun f hf => (hf ▸ hstep).of_fault⟩

end Sys2Proof.Proofs
